-- ==== Sys2Proof/Word.lean ====
section
/-!
DEFINITION. The word types of the Denorak module and their plainest names. Registers, addresses while they are
computed, instruction words and message fields are bit vectors; counts, indexes and memory keys are natural numbers.
-/
namespace Sys2Proof

/-- One byte of memory, of a tile image or of a message. -/
abbrev Byte := BitVec 8

/-- A 16-bit field: error codes (R24), generation numbers, epochs. -/
abbrev W16 := BitVec 16

/-- A 32-bit register, lane or message field. -/
abbrev W32 := BitVec 32

/-- A 64-bit scalar register, knot or instruction word. -/
abbrev W64 := BitVec 64

/-- A string of bytes in ascending offset. -/
abbrev Bytes := List Byte

end Sys2Proof
end

