-- ==== Sys2Proof/Machine/Bits.lean ====
section
/-!
DEFINITION. Bit fields, sign extension and byte order (R21, R22): the helpers that every other file of the machine uses.
-/
namespace Sys2Proof.Machine

/-- Bits `lo + w - 1 .. lo` of `v`. -/
def field (v lo w : Nat) : Nat := v / 2 ^ lo % 2 ^ w

/-- Bit `i` of `v`. -/
def bit (v i : Nat) : Bool := v / 2 ^ i % 2 == 1

/-- The number a Bool stands for in a register. -/
def b2n (b : Bool) : Nat := if b then 1 else 0

/-- The `w`-bit two's complement reading of `v` (R21). -/
def signedOf (w v : Nat) : Int :=
  let x := v % 2 ^ w
  if x < 2 ^ (w - 1) then (x : Int) else (x : Int) - (2 ^ w : Nat)

/-- The `w`-bit two's complement pattern of `z` (R21). -/
def unsignedOf (w : Nat) (z : Int) : Nat := (z % ((2 ^ w : Nat) : Int)).toNat

/-- Little-endian value of a string of bytes (R22). -/
def leNat : Bytes → Nat
  | [] => 0
  | b :: bs => b.toNat + 256 * leNat bs

/-- Little-endian bytes of a value (R22). -/
def leBytes : Nat → Nat → Bytes
  | 0, _ => []
  | n + 1, v => BitVec.ofNat 8 v :: leBytes n (v / 256)

/-- Big-endian value of a string of bytes (network order, R441). -/
def beNat (bs : Bytes) : Nat := leNat bs.reverse

/-- Big-endian bytes of a value (network order, R441). -/
def beBytes (n v : Nat) : Bytes := (leBytes n v).reverse

/-- Bytes `off .. off + n - 1` of a string, read little-endian. -/
def leAt (bs : Bytes) (off n : Nat) : Nat := leNat ((bs.drop off).take n)

/-- `n` zero bytes. -/
def zeros (n : Nat) : Bytes := List.replicate n 0

/-- A string of bytes cut or padded with zeros to `n` bytes. -/
def fitBytes (n : Nat) (bs : Bytes) : Bytes := bs.take n ++ zeros (n - bs.length)

/-- The bytes of a string overwritten from `off` on; the string keeps its length or grows. -/
def patch (bs : Bytes) (off : Nat) (new : Bytes) : Bytes :=
  fitBytes off bs ++ new ++ bs.drop (off + new.length)

/-- Addition that stops at a largest value (saturating counters). -/
def satAdd (top a b : Nat) : Nat := min top (a + b)

/-- Addition and counts held to 32 bits (R119). -/
def sat32 (n : Nat) : Nat := min n 0xFFFFFFFF

/-- Rounds `n` up to a multiple of `k`. -/
def roundUp (n k : Nat) : Nat := (n + k - 1) / k * k

/-- `z` held between two bounds. -/
def clampInt (z lo hi : Int) : Int := max lo (min z hi)

end Sys2Proof.Machine
end

