-- ==== Sys2Proof/Machine/Crc.lean ====
section
/-!
DEFINITION. The checksums of the module: CRC-32C of tile images and network frames (R83), and the bitwise step that
other CRCs share.
-/
namespace Sys2Proof.Machine

/-- One bit of a reflected CRC. -/
def crcBit (poly c : W32) : W32 := if c.getLsbD 0 then (c >>> 1) ^^^ poly else c >>> 1

/-- One byte of CRC-32C, reflected polynomial 0x82F6_3B78 (R83). -/
def crc32cByte (c : W32) (b : Byte) : W32 :=
  let p : W32 := 0x82F63B78
  let s := crcBit p
  s (s (s (s (s (s (s (s (c ^^^ b.setWidth 32))))))))

/-- CRC-32C of a string of bytes (R83). -/
def crc32c (bs : Bytes) : W32 := (bs.foldl crc32cByte 0xFFFFFFFF) ^^^ 0xFFFFFFFF

/-- CRC-32C of a tile image: the four bytes of TD_CRC count as zero (R83). -/
def tileCrc (img : Bytes) : W32 := crc32c (img.take 0x18 ++ zeros (min 4 (img.length - 0x18)) ++ img.drop 0x1C)

end Sys2Proof.Machine
end

