-- ==== Sys2Proof/Machine/Exact.lean ====
section
/-!
DEFINITION. Exact dyadic values, binary32, the element formats and the single rounding onto their grids
(R56–R60, R197, R229–R235, R294, R295).
-/
namespace Sys2Proof.Machine

/-- The exact value `m · 2^e`. -/
structure Dy where
  m : Int
  e : Int
deriving DecidableEq, Repr, Inhabited

def Dy.zero : Dy := ⟨0, 0⟩
def Dy.ofInt (z : Int) : Dy := ⟨z, 0⟩
def Dy.isZero (a : Dy) : Bool := a.m == 0
def Dy.neg (a : Dy) : Dy := ⟨-a.m, a.e⟩
def Dy.abs (a : Dy) : Dy := ⟨a.m.natAbs, a.e⟩
def Dy.mul (a b : Dy) : Dy := ⟨a.m * b.m, a.e + b.e⟩
/-- `a · 2^k`. -/
def Dy.scale (a : Dy) (k : Int) : Dy := ⟨a.m, a.e + k⟩

/-- Both mantissas brought to the smaller exponent. -/
def Dy.align (a b : Dy) : Int × Int × Int :=
  let e := min a.e b.e
  (a.m * (2 ^ (a.e - e).toNat : Nat), b.m * (2 ^ (b.e - e).toNat : Nat), e)

def Dy.add (a b : Dy) : Dy :=
  if a.m == 0 then b else if b.m == 0 then a else
  let r := a.align b
  ⟨r.1 + r.2.1, r.2.2⟩
def Dy.sub (a b : Dy) : Dy := a.add b.neg
def Dy.lt (a b : Dy) : Bool :=
  if a.m == 0 then decide (0 < b.m) else if b.m == 0 then decide (a.m < 0) else
  let r := a.align b
  decide (r.1 < r.2.1)
def Dy.le (a b : Dy) : Bool := !(b.lt a)
/-- Equality of values, whatever the representation. -/
def Dy.same (a b : Dy) : Bool := !(a.lt b) && !(b.lt a)
def Dy.max (a b : Dy) : Dy := if a.lt b then b else a
def Dy.sum (l : List Dy) : Dy := l.foldl Dy.add Dy.zero
def Dy.isNeg (a : Dy) : Bool := decide (a.m < 0)

/-- floor(log2 |a|) of a nonzero value. -/
def Dy.log2 (a : Dy) : Int := (Nat.log2 a.m.natAbs : Int) + a.e

/-- `a / 2^k` truncated toward zero, and whether nothing was cut off (R109). -/
def Dy.truncAt (a : Dy) (k : Int) : Int × Bool :=
  if k ≤ a.e then (a.m * (2 ^ (a.e - k).toNat : Nat), true)
  else
    let s := (k - a.e).toNat
    let q := a.m.natAbs / 2 ^ s
    (if a.m < 0 then -(q : Int) else (q : Int), a.m.natAbs % 2 ^ s == 0)

/-- The element formats of R56. -/
inductive Fmt where
  | n4 | n4b | n6 | n8 | t2 | g8 | g16 | f32
deriving DecidableEq, Repr, Inhabited

/-- The format codes of R76. -/
def Fmt.code : Fmt → Nat
  | .n4 => 0x01 | .n4b => 0x02 | .n6 => 0x03 | .n8 => 0x04 | .t2 => 0x05
  | .g8 => 0x11 | .g16 => 0x12 | .f32 => 0x20

/-- The format a code names (R76); the accumulator transfer form 0x30 is no element format. -/
def Fmt.ofCode (c : Nat) : Option Fmt :=
  if c == 0x01 then some .n4 else if c == 0x02 then some .n4b else if c == 0x03 then some .n6
  else if c == 0x04 then some .n8 else if c == 0x05 then some .t2 else if c == 0x11 then some .g8
  else if c == 0x12 then some .g16 else if c == 0x20 then some .f32 else none

/-- Bits of one element (R56). -/
def Fmt.bits : Fmt → Nat
  | .n4 => 4 | .n4b => 4 | .n6 => 6 | .n8 => 8 | .t2 => 2 | .g8 => 8 | .g16 => 16 | .f32 => 32

/-- Payload length (R71, R76). -/
def Fmt.payloadLen : Fmt → Nat
  | .n4 => 2048 | .n4b => 2048 | .n6 => 3072 | .n8 => 4096 | .t2 => 1024
  | .g8 => 4096 | .g16 => 8192 | .f32 => 16384

/-- The escape code: the most negative code of an N or T2 format (R56). -/
def Fmt.escape : Fmt → Option Nat
  | .n4 => some 0x8 | .n4b => some 0x8 | .n6 => some 0x20 | .n8 => some 0x80 | .t2 => some 0b10
  | .g8 => none | .g16 => none | .f32 => none

/-- N formats and T2: those with escapes and side lists (R63). -/
def Fmt.narrow (f : Fmt) : Bool := f.escape.isSome

/-- Fraction bits, smallest and largest spacing exponent of a floating format (R56). -/
def Fmt.float : Fmt → Nat × Int × Int
  | .g8 => (4, -10, -4)
  | .g16 => (11, -25, -11)
  | _ => (23, -149, 104)

/-- Largest code of an integer format (R229). -/
def Fmt.intMax : Fmt → Nat
  | .n8 => 127 | .n6 => 31 | .n4 => 7 | .t2 => 1 | _ => 0

/-- The level of code `c` in a code book (R59, R60); code 8 is the escape and has none. -/
def bookLevel (book : Bytes) (c : Nat) : Int := signedOf 8 ((book.getD c 0).toNat)

/-- A code book obeys R59. -/
def bookValid (book : Bytes) : Bool :=
  book.length == 16 && book.getD 0 1 == 0 && book.getD 8 0 == 0x80 &&
    (List.range 16).all fun j => j == 8 || book.getD j 0 != 0x80

/-- Value of a floating pattern of a G format or of finite binary32 (R56, R57). -/
def floatValue (f : Fmt) (c : Nat) : Dy :=
  let (fb, kmin, _) := f.float
  let tot := f.bits
  let x := field c fb (tot - 1 - fb)
  let fr := field c 0 fb
  let v : Dy := if x == 0 then ⟨fr, kmin⟩ else ⟨(fr + 2 ^ fb : Nat), kmin + (x : Int) - 1⟩
  if bit c (tot - 1) then v.neg else v

/-- Value of a code at block scale 1; an escape code counts as 0 (R56, R60, R96, R146). -/
def codeValue (f : Fmt) (book : Bytes) (c : Nat) : Dy :=
  match f with
  | .n4b => if c == 8 then Dy.zero else Dy.ofInt (bookLevel book c)
  | .g8 => floatValue .g8 c
  | .g16 => floatValue .g16 c
  | .f32 => floatValue .f32 c
  | _ => if some c == f.escape then Dy.zero else Dy.ofInt (signedOf f.bits c)

/-- The rounding modes RNE, RTZ and STOCH (R230–R233), and the upward rounding of a held fit maximum (R199). -/
inductive Mode where
  | rne | rtz | stoch | up
deriving DecidableEq, Repr, Inhabited

/-- What a rounding did: on the grid, between two points, nonzero to zero, beyond the largest magnitude. -/
inductive Rnd where
  | exact | inexact | vanish | clip
deriving DecidableEq, Repr, Inhabited

/-- `a / 2^s` rounded to an integer, ties to even under RNE, by the word `w` under STOCH (R230–R233). -/
def roundNat (a s : Nat) (md : Mode) (w : Nat) : Nat × Bool :=
  let q := a / 2 ^ s
  let r := a % 2 ^ s
  if r == 0 then (q, true) else
  let up : Bool := match md with
    | .rne => decide (2 ^ s < 2 * r) || (2 * r == 2 ^ s && q % 2 == 1)
    | .rtz => false
    | .up => true
    | .stoch =>
      -- n = number of places of r / 2^s
      let n := s - (Nat.log2 (r ^^^ (r - 1)))
      if n ≤ 32 then decide (w / 2 ^ (32 - n) < r * 2 ^ n / 2 ^ s)
      else decide (w < r * 2 ^ 32 / 2 ^ s)
  (if up then q + 1 else q, false)

/-- A magnitude rounded onto a floating grid that has no upper end: significand, spacing exponent, exactness. -/
def roundFloat (f : Fmt) (a : Dy) (md : Mode) (w : Nat) : Nat × Int × Bool :=
  let (fb, kmin, _) := f.float
  let k := max (a.log2 - fb) kmin
  let n := a.m.natAbs
  let (q, ex) := if k ≤ a.e then (n * 2 ^ (a.e - k).toNat, true) else roundNat n (k - a.e).toNat md w
  if 2 ^ (fb + 1) ≤ q then (q / 2, k + 1, ex) else (q, k, ex)

/-- The pattern of a floating format for sign, significand and spacing exponent. -/
def floatCode (f : Fmt) (neg : Bool) (q : Nat) (k : Int) : Nat :=
  let (fb, kmin, _) := f.float
  let s := b2n neg * 2 ^ (f.bits - 1)
  if q < 2 ^ fb then s + q else s + ((k - kmin + 1).toNat * 2 ^ fb) + (q - 2 ^ fb)

/-- The largest magnitude of a floating format. -/
def floatMax (f : Fmt) : Dy := let (fb, _, kmax) := f.float; ⟨(2 ^ (fb + 1) - 1 : Nat), kmax⟩

/-- The levels of a book that have the sign of `neg`, as magnitudes, zero included (R229). -/
def bookSide (book : Bytes) (neg : Bool) : List Nat :=
  ((List.range 16).filter (· != 8)).filterMap fun c =>
    let l := bookLevel book c
    if l == 0 then some 0 else if decide (l < 0) == neg then some l.natAbs else none

/-- The smallest code that holds a level (R230). -/
def bookCode (book : Bytes) (l : Int) : Nat :=
  (((List.range 16).filter (· != 8)).find? fun c => bookLevel book c == l).getD 0

/-- Rounds a value at block scale 1 to the nearest level of its own sign (R229–R232, R234). -/
def roundBook (book : Bytes) (v : Dy) (md : Mode) (w : Nat) : Nat × Rnd :=
  if v.isZero then (0, .exact) else
  let side := bookSide book v.isNeg
  let a := v.abs
  let sgn : Nat → Int := fun n => if v.isNeg then -(n : Int) else (n : Int)
  let lo := (side.filter fun (n : Nat) => (Dy.ofInt (n : Int)).le a).foldl Nat.max 0
  let his := side.filter fun (n : Nat) => a.lt (Dy.ofInt (n : Int))
  if (Dy.ofInt lo).same a then (bookCode book (sgn lo), .exact)
  else match his with
    | [] => (bookCode book (sgn lo), .clip)
    | h :: hs =>
      let hi := hs.foldl Nat.min h
      let below := a.sub (Dy.ofInt lo)
      let above := (Dy.ofInt hi).sub a
      let up : Bool := match md with
        | .rne => above.lt below
        | .rtz => false
        | .up => true
        | .stoch => decide ((w : Int) < ((below.scale 32).truncAt 0).1 / ((hi - lo : Nat) : Int))
      let pick := if up then hi else lo
      (bookCode book (sgn pick), if pick == 0 then .vanish else .inexact)

/-- Rounds a value into binary32, clipping at the largest finite value; every zero is +0 (R126, R235). -/
def roundF32 (v : Dy) (md : Mode) (w : Nat) : W32 × Rnd :=
  if v.isZero then (0, .exact)
  else if (floatMax .f32).lt v.abs then
    (BitVec.ofNat 32 (b2n v.isNeg * 2 ^ 31 + 0x7F7FFFFF), .clip)
  else
    let (q, k, ex) := roundFloat .f32 v.abs md w
    if q == 0 then (0, .vanish)
    else (BitVec.ofNat 32 (floatCode .f32 v.isNeg q k), if ex then .exact else .inexact)

/-- Rounds a value, already divided by its block scale, onto the grid of a format (R229–R234). -/
def roundCode (f : Fmt) (book : Bytes) (v : Dy) (md : Mode) (w : Nat) : Nat × Rnd :=
  if v.isZero then (0, .exact) else
  match f with
  | .n4b => roundBook book v md w
  | .f32 => let r := roundF32 v md w; (r.1.toNat, r.2)
  | .g8 | .g16 =>
    if (floatMax f).lt v.abs then
      let (fb, _, kmax) := f.float
      (floatCode f v.isNeg (2 ^ (fb + 1) - 1) kmax, .clip)
    else
      let (q, k, ex) := roundFloat f v.abs md w
      if q == 0 then (0, .vanish) else (floatCode f v.isNeg q k, if ex then .exact else .inexact)
  | _ =>
    let top := f.intMax
    let (q, st) :=
      if (Dy.ofInt top).lt v.abs then (top, Rnd.clip)
      else
        let n := v.m.natAbs
        let (q, ex) := if 0 ≤ v.e then (n * 2 ^ v.e.toNat, true) else roundNat n (-v.e).toNat md w
        (q, if q == 0 then Rnd.vanish else if ex then Rnd.exact else Rnd.inexact)
    (unsignedOf f.bits (if v.isNeg then -(q : Int) else (q : Int)), st)

/-- The largest magnitude of a format's grid; for N4B that of the book's levels of either sign (R197, R229). -/
def gridMax (f : Fmt) (book : Bytes) : Dy :=
  match f with
  | .n4b => Dy.ofInt ((bookSide book false ++ bookSide book true).foldl Nat.max 0 : Nat)
  | .g8 | .g16 | .f32 => floatMax f
  | _ => Dy.ofInt f.intMax

/-- A magnitude, divided by its block scale and rounded in the mode, exceeds the format's largest magnitude
(R197, R200, R202). STOCH does not round first; an N4B magnitude above every level exceeds. -/
def exceedsMax (f : Fmt) (book : Bytes) (a : Dy) (md : Mode) : Bool :=
  if !((gridMax f book).lt a) then false else
  match md with
  | .stoch => true
  | _ => match f with
    | .n4b => true
    | .g8 | .g16 | .f32 =>
      let (q, k, _) := roundFloat f a md 0
      (floatMax f).lt ⟨q, k⟩
    | _ =>
      let n := a.m.natAbs
      let q := if 0 ≤ a.e then n * 2 ^ a.e.toNat else (roundNat n (-a.e).toNat md 0).1
      decide (f.intMax < q)

/-- A value at block scale 1 exceeds the largest magnitude of its grid (R200, R202, R229): for N4B the largest level of its own sign, zero
when the book has none. -/
def exceedsOwn (f : Fmt) (book : Bytes) (v : Dy) (md : Mode) : Bool :=
  match f with
  | .n4b => (Dy.ofInt ((bookSide book v.isNeg).foldl Nat.max 0 : Nat)).lt v.abs
  | _ => exceedsMax f book v.abs md

/-- The first of `n` exponents from `e` on under which the magnitude fits. -/
def fitFrom (f : Fmt) (book : Bytes) (m : Dy) (md : Mode) : Nat → Nat → Nat
  | 0, _ => 0xFE
  | n + 1, e => if exceedsMax f book (m.scale (127 - (e : Int))) md then fitFrom f book m md n (e + 1) else e

/-- The fit exponent of a magnitude (R197): the smallest E of 0x01–0xFE that fits, 0xFE when none does. -/
def fitExp (f : Fmt) (book : Bytes) (m : Dy) (md : Mode) : Nat := fitFrom f book m md 0xFE 1

/-- A fit maximum as held in reports and history: binary32 rounded upward, +∞ beyond the range (R199). -/
def fitHold (m : Dy) : W32 :=
  if m.isZero then 0 else
  let (q, k, _) := roundFloat .f32 m.abs .up 0
  if (floatMax .f32).lt ⟨q, k⟩ then 0x7F800000 else BitVec.ofNat 32 (floatCode .f32 false q k)

/-- E_fit of a held fit maximum; E_fit(+∞) is 0xFE (R199). -/
def fitExpHeld (f : Fmt) (book : Bytes) (m : W32) (md : Mode) : Nat :=
  if m == 0x7F800000 then 0xFE else fitExp f book (floatValue .f32 m.toNat) md

/-! Binary32 arithmetic of the vector engine (R294, R295). -/

/-- The one NaN that arithmetic returns (R294). -/
def f32NaN : W32 := 0x7FC00000
def f32Inf (neg : Bool) : W32 := if neg then 0xFF800000 else 0x7F800000
def f32Zero (neg : Bool) : W32 := if neg then 0x80000000 else 0
def f32Neg (x : W32) : Bool := x.getLsbD 31
def f32IsNaN (x : W32) : Bool := decide (0x7F800000 < x.toNat % 2 ^ 31)
def f32IsInf (x : W32) : Bool := x.toNat % 2 ^ 31 == 0x7F800000
def f32IsZero (x : W32) : Bool := x.toNat % 2 ^ 31 == 0
def f32Finite (x : W32) : Bool := !(f32IsNaN x) && !(f32IsInf x)
def f32Val (x : W32) : Dy := floatValue .f32 x.toNat

/-- A nonzero exact value rounded RNE to binary32; beyond the range it is infinity, below it a zero of its sign. -/
def f32Round (v : Dy) : W32 :=
  if v.isZero then 0 else
  let (q, k, _) := roundFloat .f32 v.abs .rne 0
  if (floatMax .f32).lt ⟨q, k⟩ then f32Inf v.isNeg
  else if q == 0 then f32Zero v.isNeg
  else BitVec.ofNat 32 (floatCode .f32 v.isNeg q k)

/-- An exact sum rounded, with the sign an exact zero takes: −0 only where every addend is negative. -/
def f32OfSum (v : Dy) (allNeg : Bool) : W32 := if v.isZero then f32Zero allNeg else f32Round v

def f32Add (a b : W32) : W32 :=
  if f32IsNaN a || f32IsNaN b then f32NaN
  else if f32IsInf a then (if f32IsInf b && f32Neg a != f32Neg b then f32NaN else a)
  else if f32IsInf b then b
  else f32OfSum ((f32Val a).add (f32Val b)) (f32Neg a && f32Neg b)

def f32Flip (a : W32) : W32 := a ^^^ 0x80000000
def f32Sub (a b : W32) : W32 := if f32IsNaN b then f32NaN else f32Add a (f32Flip b)

def f32Mul (a b : W32) : W32 :=
  let s := f32Neg a != f32Neg b
  if f32IsNaN a || f32IsNaN b then f32NaN
  else if f32IsInf a || f32IsInf b then (if f32IsZero a || f32IsZero b then f32NaN else f32Inf s)
  else
    let p := (f32Val a).mul (f32Val b)
    if p.isZero then f32Zero s else f32Round p

/-- `a · b + c` with one rounding (R293, R295). -/
def f32Fma (a b c : W32) : W32 :=
  let s := f32Neg a != f32Neg b
  if f32IsNaN a || f32IsNaN b || f32IsNaN c then f32NaN
  else if f32IsInf a || f32IsInf b then
    if f32IsZero a || f32IsZero b then f32NaN
    else if f32IsInf c && f32Neg c != s then f32NaN else f32Inf s
  else if f32IsInf c then c
  else f32OfSum (((f32Val a).mul (f32Val b)).add (f32Val c)) (s && f32Neg c)

/-- Floor of the square root, bit by bit from bit `k`. -/
def isqrtFrom (n : Nat) : Nat → Nat → Nat
  | 0, r => if (r + 1) * (r + 1) ≤ n then r + 1 else r
  | k + 1, r =>
    let r' := r + 2 ^ (k + 1)
    isqrtFrom n k (if r' * r' ≤ n then r' else r)

def isqrt (n : Nat) : Nat := isqrtFrom n (Nat.log2 n / 2 + 1) 0

/-- The binary32 values just below and just above an exact positive quotient or root, given as a value rounded down
to 64 significant bits and whether that was exact. Equal when the value is representable. -/
def f32Neighbours (v : Dy) (exact : Bool) (neg : Bool) : W32 × W32 :=
  let lo := roundFloat .f32 v .rtz 0
  let loC : W32 := BitVec.ofNat 32 (floatCode .f32 neg lo.1 lo.2.1)
  let clip : W32 → W32 := fun c => if (floatMax .f32).lt ⟨lo.1, lo.2.1⟩ then f32Inf neg else c
  if exact && lo.2.2 then (clip loC, clip loC) else (clip loC, clip (loC + 1))

/-- The two candidates for a / b (R295: within 1 ulp; a representable quotient is exact). -/
def f32DivPair (a b : W32) : W32 × W32 :=
  let s := f32Neg a != f32Neg b
  let one : W32 → W32 × W32 := fun x => (x, x)
  if f32IsNaN a || f32IsNaN b then one f32NaN
  else if f32IsInf a then one (if f32IsInf b then f32NaN else f32Inf s)
  else if f32IsInf b then one (f32Zero s)
  else if f32IsZero b then one (if f32IsZero a then f32NaN else f32Inf s)
  else if f32IsZero a then one (f32Zero s)
  else
    let va := f32Val a
    let vb := f32Val b
    let n := va.m.natAbs * 2 ^ 240
    let d := vb.m.natAbs
    f32Neighbours ⟨(n / d : Nat), va.e - vb.e - 240⟩ (n % d == 0) s

/-- The two candidates for √a (R295). -/
def f32SqrtPair (a : W32) : W32 × W32 :=
  let one : W32 → W32 × W32 := fun x => (x, x)
  if f32IsNaN a then one f32NaN
  else if f32IsZero a then one a
  else if f32Neg a then one f32NaN
  else if f32IsInf a then one a
  else
    let v := f32Val a
    let odd := v.e % 2 != 0
    let n := v.m.natAbs * 2 ^ (if odd then 201 else 200)
    let e := (v.e - (if odd then 201 else 200)) / 2
    let r := isqrt n
    f32Neighbours ⟨r, e⟩ (r * r == n) false

/-- −0 lies below +0, and a NaN gives way to the other operand (R294). -/
def f32Less (a b : W32) : Bool :=
  if f32IsZero a && f32IsZero b then f32Neg a && !(f32Neg b)
  else if f32IsInf a then f32Neg a && !(f32IsInf b && f32Neg b)
  else if f32IsInf b then !(f32Neg b)
  else (f32Val a).lt (f32Val b)

def f32Min (a b : W32) : W32 :=
  if f32IsNaN a then (if f32IsNaN b then f32NaN else b)
  else if f32IsNaN b then a else if f32Less b a then b else a
def f32Max (a b : W32) : W32 :=
  if f32IsNaN a then (if f32IsNaN b then f32NaN else b)
  else if f32IsNaN b then a else if f32Less a b then b else a

/-- The three comparisons of binary32: false with a NaN, and the zeros equal. -/
def f32Eq (a b : W32) : Bool :=
  !(f32IsNaN a) && !(f32IsNaN b) && (a == b || (f32IsZero a && f32IsZero b))
def f32Lt (a b : W32) : Bool :=
  !(f32IsNaN a) && !(f32IsNaN b) && !(f32IsZero a && f32IsZero b) && f32Less a b
def f32Le (a b : W32) : Bool := f32Eq a b || f32Lt a b

/-- The exact sum of lanes, rounded once (VRSUM.F32, R293–R295). -/
def f32SumAll (l : List W32) : W32 :=
  if l.any f32IsNaN then f32NaN
  else
    let pos := l.any fun x => f32IsInf x && !(f32Neg x)
    let neg := l.any fun x => f32IsInf x && f32Neg x
    if pos && neg then f32NaN
    else if pos then f32Inf false
    else if neg then f32Inf true
    else f32OfSum (Dy.sum (l.map f32Val)) (!l.isEmpty && l.all f32Neg)

end Sys2Proof.Machine
end

