-- ==== Sys2Proof/Machine/Table.lean ====
section
/-!
DEFINITION. A sparse table: a list of (key, value) pairs with strictly rising keys in which no entry equals what an
unlisted key reads as. Memory is such a table of bytes; register files, pages, trackers, knots and queues are others.
-/
namespace Sys2Proof.Machine

/-- A sparse table, plain data. -/
abbrev Tbl (α : Type) := List (Nat × α)

/-- What the table reads at a key: the listed value, or `d` where nothing is listed. -/
def Tbl.get {α : Type} (t : Tbl α) (d : α) (k : Nat) : α :=
  match t with
  | [] => d
  | (j, v) :: rest => if j == k then v else if k < j then d else Tbl.get rest d k

/-- The listed value at a key, if any. -/
def Tbl.find {α : Type} (t : Tbl α) (k : Nat) : Option α :=
  match t with
  | [] => none
  | (j, v) :: rest => if j == k then some v else if k < j then none else Tbl.find rest k

/-- Removes a key. -/
def Tbl.del {α : Type} (t : Tbl α) (k : Nat) : Tbl α :=
  match t with
  | [] => []
  | (j, v) :: rest => if j == k then rest else if k < j then (j, v) :: rest else (j, v) :: Tbl.del rest k

/-- Lists a value at a key, replacing what was there. -/
def Tbl.put {α : Type} (t : Tbl α) (k : Nat) (v : α) : Tbl α :=
  match t with
  | [] => [(k, v)]
  | (j, w) :: rest =>
    if j == k then (k, v) :: rest
    else if k < j then (k, v) :: (j, w) :: rest
    else (j, w) :: Tbl.put rest k v

/-- Writes a value at a key in the canonical form: writing what an unlisted key reads as removes the entry. -/
def Tbl.set {α : Type} [DecidableEq α] (t : Tbl α) (d : α) (k : Nat) (v : α) : Tbl α :=
  if v = d then Tbl.del t k else Tbl.put t k v

/-- Every key of the table lies above `k`. -/
def Tbl.above {α : Type} (k : Nat) (t : Tbl α) : Bool :=
  match t with
  | [] => true
  | (j, _) :: _ => decide (k < j)

/-- The canonical form: keys strictly rising, no entry equal to `d`. -/
def Tbl.wf {α : Type} [DecidableEq α] (d : α) : Tbl α → Bool
  | [] => true
  | (j, v) :: rest => decide (v ≠ d) && Tbl.above j rest && Tbl.wf d rest

/-- The entries whose keys lie in `a .. a + n - 1`. -/
def Tbl.slice {α : Type} (t : Tbl α) (a n : Nat) : Tbl α :=
  t.filter fun kv => decide (a ≤ kv.1) && decide (kv.1 < a + n)

/-- `n` consecutive values from key `a`, read off a slice in one pass. -/
def Tbl.expand {α : Type} (d : α) : Nat → Nat → Tbl α → List α
  | 0, _, _ => []
  | n + 1, a, [] => d :: Tbl.expand d n (a + 1) []
  | n + 1, a, (j, v) :: rest =>
    if j == a then v :: Tbl.expand d n (a + 1) rest
    else d :: Tbl.expand d n (a + 1) ((j, v) :: rest)

/-- The entries that list `vs` from key `a` on, without those equal to `d`. -/
def Tbl.ofRun {α : Type} [DecidableEq α] (d : α) (a : Nat) : List α → Tbl α
  | [] => []
  | v :: vs => if v = d then Tbl.ofRun d (a + 1) vs else (a, v) :: Tbl.ofRun d (a + 1) vs

/-- Reads `n` consecutive values from key `a`. -/
def Tbl.range {α : Type} (t : Tbl α) (d : α) (a n : Nat) : List α :=
  Tbl.expand d n a (Tbl.slice t a n)

/-- Writes a run of values from key `a` in the canonical form. -/
def Tbl.setRun {α : Type} [DecidableEq α] (t : Tbl α) (d : α) (a : Nat) (vs : List α) : Tbl α :=
  t.filter (fun kv => decide (kv.1 < a)) ++ Tbl.ofRun d a vs
    ++ t.filter (fun kv => decide (a + vs.length ≤ kv.1))

/-- Every listed value changed; the keys stay. -/
def Tbl.mapV {α β : Type} (f : α → β) (t : Tbl α) : Tbl β := List.map (fun kv => (kv.1, f kv.2)) t

/-- The keys whose values satisfy `p`, rising. -/
def Tbl.keysWhere {α : Type} (p : α → Bool) (t : Tbl α) : List Nat :=
  List.map (fun kv => kv.1) (List.filter (fun kv => p kv.2) t)

end Sys2Proof.Machine
end

