-- ==== Sys2Proof/Machine/Tile.lean ====
section
/-!
DEFINITION. Tile images: descriptor, element placement, payload packing, checks at use, decoding and building
(R51–R89, R693), and the accumulator transfer image (R133, R136).
-/
namespace Sys2Proof.Machine

/-- A descriptor (R75) as read from the first 64 bytes of an image. -/
structure Desc where
  format : Nat
  axis : Nat
  genValid : Bool
  sideCount : Nat
  version : Nat
  tensor : Nat
  row : Nat
  col : Nat
  gen : Nat
  payloadLen : Nat
  extCount : Nat
  crc : Nat
  book : Bytes
deriving DecidableEq, Repr, Inhabited

def Desc.parse (d : Bytes) : Desc :=
  { format := leAt d 0 1, axis := leAt d 1 1 % 2, genValid := bit (leAt d 1 1) 1, sideCount := leAt d 2 1,
    version := leAt d 3 1, tensor := leAt d 4 4, row := leAt d 8 3, col := leAt d 0xB 3, gen := leAt d 0xE 2,
    payloadLen := leAt d 0x10 4, extCount := leAt d 0x14 2, crc := leAt d 0x18 4, book := (d.drop 0x20).take 16 }

/-- The payload lengths of R76, the transfer form's included. -/
def listedLens : List Nat := [1024, 2048, 3072, 4096, 8192, 16384, 98304]

/-- The length over which the checksum is taken, when the descriptor gives one (R83, R693). -/
def Desc.length (d : Desc) : Option Nat :=
  if listedLens.contains d.payloadLen && decide (d.extCount ≤ 4064) then some (0x1C0 + d.payloadLen + 8 * d.extCount)
  else none

/-- The stored size of an image: its length rounded up to 64 bytes (R73). -/
def Desc.stored (d : Desc) : Nat := roundUp ((d.length).getD 64) 64

/-- Block of the element at row r, column c (R70). -/
def blockOf (axis r c : Nat) : Nat := if axis == 0 then 2 * r + c / 32 else 2 * c + r / 32
/-- Position within the block (R70). -/
def posOf (axis r c : Nat) : Nat := if axis == 0 then c % 32 else r % 32
/-- Payload position of element index i (R70). -/
def payPos (axis i : Nat) : Nat := 32 * blockOf axis (i / 64) (i % 64) + posOf axis (i / 64) (i % 64)
/-- Element index of payload position q (R69, R70): the placement is its own inverse on either axis. -/
def elemIdx (axis q : Nat) : Nat := if axis == 0 then q else 64 * (q % 64) + q / 64

/-- The code at payload position q of a packed payload (R71). -/
def payCode (w : Nat) (pay : Array Byte) (q : Nat) : Nat :=
  let o := w * q
  let b := o / 8
  let v := (pay.getD b 0).toNat + 256 * (pay.getD (b + 1) 0).toNat
    + 65536 * (pay.getD (b + 2) 0).toNat + 16777216 * (pay.getD (b + 3) 0).toNat
  field v (o % 8) w

/-- Packs the codes of payload positions q, q+1, … eight at a time (R71). -/
def packCodes (w : Nat) (codes : Nat → Nat) : Bytes :=
  (List.range 512).flatMap fun g =>
    leBytes w ((List.range 8).foldl (fun acc k => acc + codes (8 * g + k) % 2 ^ w * 2 ^ (w * k)) 0)

/-- A tile whose image has been read. -/
structure Tile where
  desc : Desc
  fmt : Fmt
  exps : Array Nat
  pay : Array Byte
  side : Tbl W32
deriving Inhabited

def Tile.code (t : Tile) (q : Nat) : Nat := payCode t.fmt.bits t.pay q

/-- A side-list entry's 64 bits: index, reserved bits, value (R63). -/
def sideEntries (img : Bytes) (d : Desc) : List Nat :=
  (List.range d.sideCount).map (fun j => leAt img (0xC0 + 8 * j) 8)
    ++ (List.range d.extCount).map fun j => leAt (img.drop (0x1C0 + d.payloadLen)) (8 * j) 8

/-- What a checksum stop records beside the tile (R367): that its header may be damaged, the device address of the image, the consumer's
unit type and instance, the stored and the computed checksum, and UNCORR with the offset of the first 64-byte line that carried it. -/
structure CrcStop where
  untrusted : Bool
  addr : Nat
  unit : Nat
  inst : Nat
  stored : Nat
  computed : Nat
  uncorr : Bool
  uncorrAt : Nat
deriving DecidableEq, Repr, Inhabited

/-- What a failing check records beside its code: the tile, the failing block or element, and for a checksum what R367 adds (R88). Of a
check that fails for the tile as a whole the spec names no block or element; the record holds 0 there (DESIGN CHOICE, log entry 102). -/
structure TileFail where
  code : W16
  tensor : Nat
  row : Nat
  col : Nat
  index : Nat
  crc : Option CrcStop
deriving DecidableEq, Repr, Inhabited

def Desc.fail (d : Desc) (code : W16) (index : Nat) : TileFail := ⟨code, d.tensor, d.row, d.col, index, none⟩

/-- A stop that names no tile. -/
def TileFail.ofCode (code : W16) : TileFail := ⟨code, 0, 0, 0, 0, none⟩

/-- A failure of step 1 with what R367 records of it; any other failure as it is. Where the descriptor gives no length no checksum can be
computed, and 0 is recorded for it (R693 gives none: DESIGN CHOICE, log entry 134). -/
def TileFail.noteCrc (f : TileFail) (img : Bytes) (addr unit inst : Nat) (uncorrAt : Option Nat) : TileFail :=
  if f.code != 0x0301 then f else
  let d := Desc.parse img
  let sum := (d.length.map fun n => (tileCrc (fitBytes n img)).toNat).getD 0
  { f with crc := some ⟨true, addr, unit, inst, d.crc, sum, uncorrAt.isSome, uncorrAt.getD 0⟩ }

/-- Strictly ascending element indices (R66). -/
def ascending : List Nat → Bool
  | a :: b :: rest => decide (a < b) && ascending (b :: rest)
  | _ => true

/-- The exact value of the element at payload position q (R52, R53, R60, R64); F32 data that is not finite reads 0
here and is looked at by its bits. -/
def Tile.valueAt (t : Tile) (q : Nat) : Dy :=
  let c := t.code q
  match t.fmt with
  | .f32 => if f32Finite (BitVec.ofNat 32 c) then floatValue .f32 c else Dy.zero
  | f =>
    let e := t.exps.getD (q / 32) 0
    if e == 0 then Dy.zero
    else if some c == f.escape then f32Val ((t.side.find (elemIdx t.desc.axis q)).getD 0)
    else (codeValue f t.desc.book c).scale ((e : Int) - 127)

def Tile.isEscape (t : Tile) (q : Nat) : Bool :=
  some (t.code q) == t.fmt.escape && t.exps.getD (q / 32) 0 != 0

/-- The value of element index i (R69). -/
def Tile.value (t : Tile) (i : Nat) : Dy := t.valueAt (payPos t.desc.axis i)

/-- Step 7 of the checks at use: the side list obeys R66 and R67. Answers the index of the first entry that breaks a condition of its own;
for a list whose count or order is wrong the spec names no element, and the answer is 0 (DESIGN CHOICE, log entry 102). -/
def sideBad (t : Tile) (entries : List Nat) : Option Nat :=
  let idx := entries.map fun e => field e 52 12
  let esc := ((List.range 4096).filter t.isEscape).length
  if entries.length != esc then some 0
  else if !(ascending idx) then some 0
  else match entries.find? fun e =>
      field e 32 20 != 0 || !(f32Finite (BitVec.ofNat 32 (field e 0 32)))
        || !(t.isEscape (payPos t.desc.axis (field e 52 12))) with
    | some e => some (field e 52 12)
    | none => none

/-- Checks at use, steps 1 to 4 (R86, R133, R693), on an image read with the length its descriptor gives. -/
def checkHead (img : Bytes) : Except TileFail Desc :=
  let d := Desc.parse img
  match d.length with
  | none => .error (d.fail 0x0301 0)
  | some n =>
    if (tileCrc (fitBytes n img)).toNat != d.crc then .error (d.fail 0x0301 0)
    else if d.version != 1 || ((Fmt.ofCode d.format).isNone && d.format != 0x30) then .error (d.fail 0x0204 0)
    else
      let want := match Fmt.ofCode d.format with | some f => f.payloadLen | none => 98304
      let narrow := match Fmt.ofCode d.format with | some f => f.narrow | none => false
      if d.payloadLen != want || decide (32 < d.sideCount) || decide (4064 < d.extCount)
          || (d.extCount != 0 && d.sideCount != 32) || (d.format == 0x30 && d.axis != 0)
          || (!narrow && (d.sideCount != 0 || d.extCount != 0)) then .error (d.fail 0x0204 0)
      else if d.format == 0x02 && !(bookValid d.book) then .error (d.fail 0x0204 0)
      else .ok d

/-- The checks at use of an element tile, in the order of R86; `accept` is the operation's own step 5. -/
def checkTile (img : Bytes) (accept : Desc → Option W16) : Except TileFail Tile :=
  match checkHead img with
  | .error f => .error f
  | .ok d =>
    match accept d with
    | some code => .error (d.fail code 0)
    | none =>
      match Fmt.ofCode d.format with
      | none => .error (d.fail 0x0206 0)
      | some f =>
        let entries := sideEntries img d
        let t : Tile :=
          { desc := d, fmt := f, exps := (((img.drop 0x40).take 128).map (·.toNat)).toArray,
            pay := ((img.drop 0x1C0).take d.payloadLen).toArray,
            side := entries.foldl (fun m e => Tbl.put m (field e 52 12) (BitVec.ofNat 32 (field e 0 32))) [] }
        if f == .f32 then .ok t
        else match (List.range 128).find? fun b => t.exps.getD b 0 == 0xFF with
          | some b => .error (d.fail 0x0202 b)
          | none =>
            if f.narrow then
              match sideBad t entries with
              | some i => .error (d.fail 0x0205 i)
              | none => .ok t
            else .ok t

/-- What a producer writes into a descriptor beside the format's own fields: from a template or a source tile. -/
structure DescSeed where
  tensor : Nat
  row : Nat
  col : Nat
  gen : Nat
  genValid : Bool
  book : Bytes
deriving DecidableEq, Repr, Inhabited

/-- A 64-byte descriptor template (R131, R236). -/
def DescSeed.parse (tmpl : Bytes) : DescSeed :=
  let d := Desc.parse tmpl
  { tensor := d.tensor, row := d.row, col := d.col, gen := if d.genValid then d.gen else 0, genValid := d.genValid,
    book := d.book }

def Desc.seed (d : Desc) : DescSeed :=
  { tensor := d.tensor, row := d.row, col := d.col, gen := d.gen, genValid := d.genValid, book := d.book }

/-- The 64 descriptor bytes with TD_CRC zero (R75, R79). -/
def descBytes (format axis : Nat) (sd : DescSeed) (sideCount payloadLen extCount : Nat) : Bytes :=
  leBytes 1 format ++ leBytes 1 (axis + 2 * b2n sd.genValid) ++ leBytes 1 sideCount ++ leBytes 1 1
    ++ leBytes 4 sd.tensor ++ leBytes 3 sd.row ++ leBytes 3 sd.col ++ leBytes 2 (if sd.genValid then sd.gen else 0)
    ++ leBytes 4 payloadLen ++ leBytes 2 extCount ++ zeros 2 ++ zeros 4 ++ zeros 4
    ++ (if format == 0x02 then fitBytes 16 sd.book else zeros 16) ++ zeros 16

/-- Puts TD_CRC into an image whose other bytes are final (R84). -/
def sealImage (img : Bytes) : Bytes := patch img 0x18 (leBytes 4 (tileCrc img).toNat)

/-- An image in canonical form from exponents, codes by payload position and side list (R73, R81, R84). -/
def buildImage (f : Fmt) (axis : Nat) (sd : DescSeed) (exps : Nat → Nat) (codes : Nat → Nat) (side : Tbl W32) : Bytes :=
  let n := side.length
  let entry : Nat × W32 → Bytes := fun kv => leBytes 8 (kv.1 * 2 ^ 52 + kv.2.toNat)
  let img := descBytes f.code axis sd (min n 32) f.payloadLen (n - 32)
    ++ (List.range 128).map (fun b => BitVec.ofNat 8 (exps b))
    ++ fitBytes 256 ((side.take 32).flatMap entry)
    ++ packCodes f.bits codes
    ++ (side.drop 32).flatMap entry
  let img := sealImage img
  img ++ zeros (roundUp img.length 64 - img.length)

/-- The accumulator transfer image (R133): one half's anchor, drops, passes and 2,048 accumulators. -/
structure XfHalf where
  anchor : Int
  drops : Nat
  passes : Nat
  acc : List Int
deriving DecidableEq, Repr, Inhabited

/-- The 98,752-byte transfer image of two halves, an absent half with VALID = 0 and zero payload (R133, R134); its anchor, drops and passes,
which the spec leaves open, are written as 0 (DESIGN CHOICE, log entry 106). -/
def buildXf (sd : DescSeed) (h0 h1 : Option XfHalf) : Bytes :=
  let an : Option XfHalf → Bytes := fun h => leBytes 2 (unsignedOf 16 ((h.map (·.anchor)).getD 0))
  let dr : Option XfHalf → Bytes := fun h => leBytes 4 ((h.map (·.drops)).getD 0)
  let ps : Option XfHalf → Bytes := fun h => leBytes 4 ((h.map (·.passes)).getD 0)
  let py : Option XfHalf → Bytes := fun h => match h with
    | none => zeros 49152
    | some x => (List.range 2048).flatMap fun i => leBytes 24 (unsignedOf 192 (x.acc.getD i 0))
  sealImage (descBytes 0x30 0 { sd with book := [] } 0 98304 0
    ++ an h0 ++ an h1 ++ dr h0 ++ dr h1 ++ leBytes 1 (b2n h0.isSome + 2 * b2n h1.isSome) ++ zeros 3
    ++ ps h0 ++ ps h1 ++ zeros 360 ++ py h0 ++ py h1)

/-- One half of a transfer image as its bytes give it (R133). -/
def xfHalfOf (img : Bytes) (h : Nat) : XfHalf :=
  let pay := ((img.drop (0x1C0 + 49152 * h)).take 49152).toArray
  { anchor := signedOf 16 (leAt img (0x40 + 2 * h) 2), drops := leAt img (0x44 + 4 * h) 4, passes := leAt img (0x50 + 4 * h) 4,
    acc := (List.range 2048).map fun i =>
      signedOf 192 ((List.range 24).foldl (fun a k => a + (pay.getD (24 * i + k) 0).toNat * 2 ^ (8 * k)) 0) }

/-- The checks at use of a transfer tile (R86, R136); `need` is the half that must be VALID, if any. -/
def checkXf (img : Bytes) (need : Option Nat) : Except TileFail (Desc × List (Option XfHalf)) :=
  match checkHead img with
  | .error f => .error f
  | .ok d =>
    if d.format != 0x30 then .error (d.fail 0x0206 0)
    else
      let flags := leAt img 0x4C 1
      if (match need with | some h => !(bit flags h) | none => false) then .error (d.fail 0x0204 0)
      else
        let half : Nat → Option XfHalf := fun h => if bit flags h then some (xfHalfOf img h) else none
        .ok (d, [half 0, half 1])

end Sys2Proof.Machine
end

