-- ==== Sys2Proof/Machine/Encode.lean ====
section
/-!
DEFINITION. The encoder that CVT, ACC.RND and turns share: block exponents, outliers, spills, clamps, redos and counts
(R195, R197–R209, R229–R240, R126–R128, R154–R161).
-/
namespace Sys2Proof.Machine

/-- The ten tracker counters of R195, as counts of one report or as totals. -/
structure Counts where
  clipped : Nat
  vanished : Nat
  escaped : Nat
  spilled : Nat
  clamped : Nat
  recomputed : Nat
  dropped : Nat
  zeroBlocks : Nat
  dominated : Nat
  flat : Nat
deriving DecidableEq, Repr, Inhabited

def Counts.zero : Counts := ⟨0, 0, 0, 0, 0, 0, 0, 0, 0, 0⟩

/-- Each counter added and held at `top` (40-bit saturating in a tracker, R195). -/
def Counts.addSat (top : Nat) (a b : Counts) : Counts :=
  { clipped := satAdd top a.clipped b.clipped, vanished := satAdd top a.vanished b.vanished,
    escaped := satAdd top a.escaped b.escaped, spilled := satAdd top a.spilled b.spilled,
    clamped := satAdd top a.clamped b.clamped, recomputed := satAdd top a.recomputed b.recomputed,
    dropped := satAdd top a.dropped b.dropped, zeroBlocks := satAdd top a.zeroBlocks b.zeroBlocks,
    dominated := satAdd top a.dominated b.dominated, flat := satAdd top a.flat b.flat }

def Counts.add (a b : Counts) : Counts :=
  ⟨a.clipped + b.clipped, a.vanished + b.vanished, a.escaped + b.escaped, a.spilled + b.spilled,
   a.clamped + b.clamped, a.recomputed + b.recomputed, a.dropped + b.dropped, a.zeroBlocks + b.zeroBlocks,
   a.dominated + b.dominated, a.flat + b.flat⟩

/-- The counters in the order of R195's index. -/
def Counts.toList (a : Counts) : List Nat :=
  [a.clipped, a.vanished, a.escaped, a.spilled, a.clamped, a.recomputed, a.dropped, a.zeroBlocks, a.dominated, a.flat]

/-- The counters from a list in that order. -/
def Counts.ofList (l : List Nat) : Counts :=
  let g (i : Nat) := l.getD i 0
  ⟨g 0, g 1, g 2, g 3, g 4, g 5, g 6, g 7, g 8, g 9⟩

/-- How a tensor is encoded: the format, its book, the rounding and the tracker's settings (R187, R197–R208). -/
structure EncCfg where
  fmt : Fmt
  book : Bytes
  mode : Mode
  current : Bool
  trExp : Nat
  outEn : Bool
  outShift : Nat
  recompute : Bool
  spillMax : Nat
deriving DecidableEq, Repr, Inhabited

/-- An encoding in progress: what has been written and what has been counted. `outliers` counts escapes and clamps of
the tile so far; `spill` says that SPILL_THEN_CLAMP applies from here on (R207, R208); `redoLimit` counts the blocks that still needed a
redo when they were encoded (R202, R208). -/
structure Enc where
  exps : Array Nat
  codes : Array Nat
  side : Tbl W32
  counts : Counts
  fit : Dy
  nonzero : Nat
  outliers : Nat
  spill : Bool
  clampEvt : Bool
  redoLimit : Nat
  clipIdx : List Nat
deriving DecidableEq, Repr, Inhabited

def Enc.start (cfg : EncCfg) (outliers : Nat) (spilling : Bool) : Enc :=
  { exps := Array.replicate 128 0, codes := Array.replicate 4096 0, side := [], counts := Counts.zero, fit := Dy.zero,
    nonzero := 0, outliers := outliers, spill := !cfg.recompute || spilling, clampEvt := false, redoLimit := 0,
    clipIdx := [] }

/-- The largest magnitude of a list, one position left out. -/
def maxMag (mags : List (Nat × Dy)) (skip : Option Nat) : Dy :=
  mags.foldl (fun b pv => if some pv.1 == skip then b else b.max pv.2) Dy.zero

/-- The dominance test of CURRENT mode (R200): the position of the element it escapes. -/
def dominant (mags : List (Nat × Dy)) (shift : Nat) : Option Nat :=
  let big := maxMag mags none
  match mags.filter fun pv => pv.2.same big with
  | [pv] =>
    let second := maxMag mags (some pv.1)
    if second.isZero then none else if (second.scale shift).lt big then some pv.1 else none
  | _ => none

/-- The outcome of the redo loop: exponent, redos made, positions to escape, whether the DELAYED test chose them,
whether a redo was still needed, whether RECOMPUTE gave way to SPILL_THEN_CLAMP. -/
structure Redo where
  e : Nat
  redos : Nat
  esc : List Nat
  dtest : Bool
  limit : Bool
  gaveUp : Bool
deriving DecidableEq, Repr, Inhabited

/-- The redo loop of a block: all-saturated blocks (R202), then outliers (R200), then RECOMPUTE (R208), at most three
redos in all and none at 0xFE. `vals` are the block's nonzero values by position; each is held to the largest magnitude of its own sign. -/
def redoLoop (cfg : EncCfg) (vals : List (Nat × Dy)) (dom : Option Nat) (spill : Bool) (outliers : Nat) :
    Nat → Nat → Bool → Redo
  | left, e, dtest =>
    let tops : Dy → Bool := fun v => exceedsOwn cfg.fmt cfg.book (v.scale (127 - (e : Int))) cfg.mode
    let allSat := vals.all fun pv => tops pv.2
    let esc : List Nat :=
      if !(cfg.outEn && cfg.fmt.narrow) then []
      else if dtest then (vals.filter fun pv => tops pv.2).map (·.1)
      else dom.toList
    let tooMany := !spill && decide (32 < outliers + esc.length)
    match left with
    | 0 => ⟨e, 3, esc, dtest, allSat || tooMany, tooMany⟩
    | k + 1 =>
      if e == 0xFE then ⟨e, 2 - k, esc, dtest, allSat || tooMany, tooMany⟩
      else if allSat then redoLoop cfg vals dom spill outliers k (e + 1) dtest
      else if tooMany then redoLoop cfg vals dom spill outliers k (e + 1) true
      else ⟨e, 2 - k, esc, dtest, false, false⟩

/-- Encodes one block (R198–R209). `vals` are the exact values by payload position, `word` the random word of an
element index. -/
def encodeBlock (cfg : EncCfg) (axis : Nat) (vals : Nat → Dy) (word : Nat → Nat) (s : Enc) (b : Nat) : Enc :=
  let pos := (List.range 32).map fun p => (p, vals (32 * b + p))
  let nz := pos.filter fun pv => !pv.2.isZero
  if nz.isEmpty then { s with counts := { s.counts with zeroBlocks := s.counts.zeroBlocks + 1 } } else
  let mags := nz.map fun pv => (pv.1, pv.2.abs)
  let dom := if cfg.current && cfg.outEn && cfg.fmt.narrow then dominant mags cfg.outShift else none
  let e0 := if cfg.current then fitExp cfg.fmt cfg.book (maxMag mags dom) cfg.mode else cfg.trExp
  let r := redoLoop cfg nz dom s.spill s.outliers 3 e0 (!cfg.current)
  let s := { s with nonzero := s.nonzero + nz.length, spill := s.spill || r.gaveUp, redoLimit := s.redoLimit + b2n r.limit,
                    counts := { s.counts with recomputed := s.counts.recomputed + r.redos } }
  let step : Enc × List Nat → Nat × Dy → Enc × List Nat := fun (s, escd) (p, v) =>
    let q := 32 * b + p
    let i := elemIdx axis q
    let w := if cfg.mode == .stoch then word i else 0
    let c := s.counts
    if r.esc.contains p then
      let n := s.outliers + 1
      if decide (n ≤ 32) || (s.spill && decide (n ≤ 32 + cfg.spillMax)) then
        let (bits, st) := roundF32 v cfg.mode w
        ({ s with outliers := n, codes := s.codes.setIfInBounds q (cfg.fmt.escape.getD 0), side := Tbl.put s.side i bits,
                  clipIdx := if st == .clip then i :: s.clipIdx else s.clipIdx,
                  counts := { c with escaped := c.escaped + 1, spilled := c.spilled + b2n (decide (32 < n)),
                                     clipped := c.clipped + b2n (st == .clip),
                                     vanished := c.vanished + b2n (st == .vanish) } }, p :: escd)
      else
        let (code, _) := roundCode cfg.fmt cfg.book ⟨if v.isNeg then -1 else 1, 40⟩ .rtz 0
        ({ s with outliers := n, codes := s.codes.setIfInBounds q code, clampEvt := true, fit := s.fit.max v.abs,
                  counts := { c with clamped := c.clamped + 1 } }, escd)
    else
      let (code, st) := roundCode cfg.fmt cfg.book (v.scale (127 - (r.e : Int))) cfg.mode w
      ({ s with codes := s.codes.setIfInBounds q code, fit := s.fit.max v.abs,
                clipIdx := if st == .clip then i :: s.clipIdx else s.clipIdx,
                counts := { c with clipped := c.clipped + b2n (st == .clip),
                                   vanished := c.vanished + b2n (st == .vanish) } }, escd)
  let (s, escd) := nz.foldl step (s, [])
  let anyCode := (List.range 32).any fun p => s.codes.getD (32 * b + p) 0 != 0
  let e := if !anyCode then 0 else if escd.length == 32 then 0x7F else r.e
  let domn : Bool := match escd with
    | [p] =>
      if cfg.current then !r.dtest
      else (((maxMag mags (some p)).scale cfg.outShift).lt (maxMag (mags.filter fun pv => pv.1 == p) none))
    | _ => false
  { s with exps := s.exps.setIfInBounds b e, counts := { s.counts with dominated := s.counts.dominated + b2n domn } }

/-- Encodes a run of blocks in ascending order (R209). -/
def encodeBlocks (cfg : EncCfg) (axis : Nat) (vals : Nat → Dy) (word : Nat → Nat) (s : Enc) (blocks : List Nat) : Enc :=
  blocks.foldl (encodeBlock cfg axis vals word) s

/-- Converts a run of payload positions to F32: no exponents, no escapes; the fit maximum is the largest magnitude (R126, R199, R235,
R240). -/
def encodeF32 (axis : Nat) (vals : Nat → Dy) (mode : Mode) (word : Nat → Nat) (s : Enc) (qs : List Nat) : Enc :=
  qs.foldl (fun s q =>
    let v := vals q
    if v.isZero then s else
    let i := elemIdx axis q
    let (bits, st) := roundF32 v mode (if mode == .stoch then word i else 0)
    { s with codes := s.codes.setIfInBounds q bits.toNat, nonzero := s.nonzero + 1, fit := s.fit.max v.abs,
             clipIdx := if st == .clip then i :: s.clipIdx else s.clipIdx,
             counts := { s.counts with clipped := s.counts.clipped + b2n (st == .clip),
                                       vanished := s.counts.vanished + b2n (st == .vanish) } }) s

/-- The canonical image of a finished encoding (R81). -/
def Enc.image (s : Enc) (f : Fmt) (axis : Nat) (sd : DescSeed) : Bytes :=
  buildImage f axis sd (fun b => s.exps.getD b 0) (fun q => s.codes.getD q 0) s.side

/-- The destination formats that a turn allows for each source format (R155). -/
def turnAllowed (src dst : Fmt) : Bool :=
  match src with
  | .n8 | .n6 | .n4 | .t2 | .n4b => dst == src || dst == .g16
  | .g8 => dst == .g8 || dst == .g16
  | .g16 => dst == .g16
  | .f32 => dst == .f32

/-- A turned tile (R154, R157–R159): image, elements that changed, lowest such index, counts and fit maximum. -/
structure Turned where
  image : Bytes
  inexact : Nat
  firstInexact : Nat
  counts : Counts
  fit : Dy
  nonzero : Nat
deriving DecidableEq, Repr, Inhabited

/-- The state of a turn: exponents, codes, changed elements (by index), clips, vanishes, fit maximum. -/
structure TurnAcc where
  exps : Array Nat
  codes : Array Nat
  changed : List Nat
  counts : Counts
  fit : Dy
  nonzero : Nat

/-- An element on its way through a turn: destination position, element index, value, and whether it stays escaped. -/
structure TurnElem where
  q : Nat
  i : Nat
  v : Dy
  esc : Bool

/-- One destination block of a turn (R157, R159): E′, then every ordinary element rounded RNE. -/
def turnBlock (t : Tile) (dst : Fmt) (axis : Nat) (s : TurnAcc) (b : Nat) : TurnAcc :=
  let keep := dst == t.fmt
  let pos : List TurnElem := (List.range 32).map fun p =>
    let q := 32 * b + p
    let i := elemIdx axis q
    let sq := payPos t.desc.axis i
    ⟨q, i, t.valueAt sq, keep && t.isEscape sq⟩
  let ord := pos.filter fun x => !x.esc && !x.v.isZero
  let escs := pos.filter fun x => x.esc
  let m := ord.foldl (fun a x => a.max x.v.abs) Dy.zero
  let e :=
    if ord.isEmpty then (if escs.isEmpty then 0 else 0x7F) else fitExp dst t.desc.book m .rne
  let s := { s with codes := escs.foldl (fun c x => c.setIfInBounds x.q (dst.escape.getD 0)) s.codes,
                    nonzero := s.nonzero + ord.length + (escs.filter fun x => !x.v.isZero).length,
                    fit := s.fit.max m }
  let one : TurnAcc → TurnElem → TurnAcc := fun s x =>
    let (code, st) := roundCode dst t.desc.book (x.v.scale (127 - (e : Int))) .rne 0
    { s with codes := s.codes.setIfInBounds x.q code,
             changed := if st == .exact then s.changed else x.i :: s.changed,
             counts := { s.counts with clipped := s.counts.clipped + b2n (st == .clip),
                                       vanished := s.counts.vanished + b2n (st == .vanish) } }
  let s := ord.foldl one s
  let anyCode := (List.range 32).any fun p => s.codes.getD (32 * b + p) 0 != 0
  { s with exps := s.exps.setIfInBounds b (if anyCode then e else 0) }

/-- Turns a tile to a destination format (R154–R160). -/
def turnTile (t : Tile) (dst : Fmt) : Turned :=
  let axis := 1 - t.desc.axis
  if t.fmt == .f32 then
    { image := buildImage .f32 axis t.desc.seed (fun _ => 0) (fun q => t.code (payPos t.desc.axis (elemIdx axis q))) [],
      inexact := 0, firstInexact := 0, counts := Counts.zero,
      fit := (List.range 4096).foldl (fun a q => a.max (t.valueAt q).abs) Dy.zero,
      nonzero := ((List.range 4096).filter fun q => !(t.valueAt q).isZero).length }
  else
    let s := (List.range 128).foldl (turnBlock t dst axis)
      { exps := Array.replicate 128 0, codes := Array.replicate 4096 0, changed := [], counts := Counts.zero,
        fit := Dy.zero, nonzero := 0 }
    { image := buildImage dst axis t.desc.seed (fun b => s.exps.getD b 0) (fun q => s.codes.getD q 0)
        (if dst == t.fmt then t.side else []),
      inexact := s.changed.length,
      firstInexact := s.changed.foldl Nat.min 4096, counts := s.counts, fit := s.fit, nonzero := s.nonzero }

end Sys2Proof.Machine
end

