-- ==== Sys2Proof/Machine/Curve.lean ====
section
/-!
DEFINITION. The curves of the vector engine and the functions behind the segmented tables, correctly rounded
(R253, R254, R267, R295, R297, R298). Every real function is enclosed between two integers scaled by `2^P`; a result is
rounded when both ends round alike, else the enclosure is taken again with more places.
-/
namespace Sys2Proof.Machine

/-- An enclosure: a real number between `lo / 2^P` and `hi / 2^P`. -/
structure Iv where
  lo : Int
  hi : Int
deriving DecidableEq, Repr, Inhabited

def cdiv (a b : Int) : Int := -((-a) / b)
def Iv.pt (x : Int) : Iv := ⟨x, x⟩
def Iv.add (a b : Iv) : Iv := ⟨a.lo + b.lo, a.hi + b.hi⟩
def Iv.neg (a : Iv) : Iv := ⟨-a.hi, -a.lo⟩
def Iv.sub (a b : Iv) : Iv := a.add b.neg
def min4 (a b c d : Int) : Int := min (min a b) (min c d)
def max4 (a b c d : Int) : Int := max (max a b) (max c d)
def Iv.mul (P : Nat) (a b : Iv) : Iv :=
  let s : Int := (2 ^ P : Nat)
  let p := a.lo * b.lo
  let q := a.lo * b.hi
  let r := a.hi * b.lo
  let t := a.hi * b.hi
  ⟨min4 p q r t / s, cdiv (max4 p q r t) s⟩
/-- Quotient by a positive enclosure. -/
def Iv.div (P : Nat) (a b : Iv) : Iv :=
  let s : Int := (2 ^ P : Nat)
  ⟨min (a.lo * s / b.lo) (a.lo * s / b.hi), max (cdiv (a.hi * s) b.lo) (cdiv (a.hi * s) b.hi)⟩
def Iv.smul (k : Int) (a : Iv) : Iv := if 0 ≤ k then ⟨k * a.lo, k * a.hi⟩ else ⟨k * a.hi, k * a.lo⟩
/-- Quotient by a positive integer. -/
def Iv.idiv (a : Iv) (k : Int) : Iv := ⟨a.lo / k, cdiv a.hi k⟩
/-- `a · 2^k`. -/
def Iv.shift (a : Iv) (k : Int) : Iv :=
  if 0 ≤ k then ⟨a.lo * (2 ^ k.toNat : Nat), a.hi * (2 ^ k.toNat : Nat)⟩
  else ⟨a.lo / (2 ^ (-k).toNat : Nat), cdiv a.hi (2 ^ (-k).toNat : Nat)⟩
def Iv.one (P : Nat) : Iv := Iv.pt (2 ^ P : Nat)

/-- A dyadic value at `P` places, enclosed. -/
def Iv.ofDy (P : Nat) (a : Dy) : Iv := (Iv.pt a.m).shift (a.e + P)

/-- Sum of `z^(2n+1) / (2n+1)` over `n` terms from `k`, signs alternating when `alt`. -/
def oddSeries (P : Nat) (alt : Bool) (zz : Iv) : Nat → Nat → Iv → Iv → Iv
  | 0, _, _, acc => acc
  | n + 1, k, pw, acc =>
    let t := pw.idiv (2 * k + 1)
    let acc := if alt && k % 2 == 1 then acc.sub t else acc.add t
    oddSeries P alt zz n (k + 1) (pw.mul P zz) acc

/-- atanh z for an enclosure within ±1/3. -/
def atanhIv (P : Nat) (z : Iv) : Iv :=
  let s := oddSeries P false (z.mul P z) (P / 3 + 4) 0 z (Iv.pt 0)
  ⟨s.lo - 2, s.hi + 2⟩

/-- atan (1 / k) for an integer k ≥ 5. -/
def atanInv (P k : Nat) : Iv :=
  let z := (Iv.one P).idiv k
  let s := oddSeries P true (z.mul P z) (P / 4 + 4) 0 z (Iv.pt 0)
  ⟨s.lo - 2, s.hi + 2⟩

def piIv (P : Nat) : Iv := ((atanInv P 5).smul 16).sub ((atanInv P 239).smul 4)
def ln2Iv (P : Nat) : Iv := (atanhIv P ((Iv.one P).idiv 3)).smul 2

/-- ln (m · 2^e) for m > 0. -/
def lnIv (P : Nat) (m : Nat) (e : Int) : Iv :=
  let n := Nat.log2 m
  let p : Int := (2 ^ n : Nat)
  let z := (Iv.pt (m - p)).div P (Iv.pt (m + p))
  ((ln2Iv P).smul (n + e)).add ((atanhIv P z).smul 2)

/-- ln of a positive enclosure. -/
def lnOf (P : Nat) (a : Iv) : Iv :=
  if a.lo ≤ 0 then ⟨-(2 ^ (P + 20) : Nat), (2 ^ (P + 20) : Nat)⟩
  else ⟨(lnIv P a.lo.toNat (-P)).lo, (lnIv P a.hi.toNat (-P)).hi⟩

def expTaylor (P : Nat) (r : Iv) : Nat → Nat → Iv → Iv → Iv
  | 0, _, t, acc => ⟨acc.lo, acc.hi + 2 * t.hi + 1⟩
  | n + 1, k, t, acc => expTaylor P r n (k + 1) ((t.mul P r).idiv (k + 1)) (acc.add t)

def squareTimes (P : Nat) : Nat → Iv → Iv
  | 0, a => a
  | n + 1, a => squareTimes P n (a.mul P a)

/-- e^x for a point x / 2^P. -/
def expPt (P : Nat) (x : Int) : Iv :=
  let l := ln2Iv P
  let k := x / l.hi
  let r := (Iv.pt x).sub (l.smul k)
  let r8 := r.shift (-8)
  let t := expTaylor P r8 (P / 6 + 8) 0 (Iv.one P) (Iv.pt 0)
  (squareTimes P 8 t).shift k

def expIv (P : Nat) (a : Iv) : Iv := ⟨(expPt P a.lo).lo, (expPt P a.hi).hi⟩

/-- √ of a nonnegative enclosure. -/
def sqrtIv (P : Nat) (a : Iv) : Iv :=
  ⟨isqrt (a.lo.toNat * 2 ^ P), isqrt (a.hi.toNat * 2 ^ P) + 1⟩

/-- The all-positive series of erf: the sum of `2^n u^(2n+1) / (2n+1)!!`. -/
def erfSeries (P : Nat) (uu : Iv) : Nat → Nat → Iv → Iv → Iv
  | 0, _, t, acc => ⟨acc.lo, acc.hi + 2 * t.hi + 1⟩
  | n + 1, k, t, acc => erfSeries P uu n (k + 1) (((t.mul P uu).smul 2).idiv (2 * k + 3)) (acc.add t)

/-- erf of a nonnegative enclosure. -/
def erfPos (P : Nat) (u : Iv) : Iv :=
  let uu := u.mul P u
  let n := 6 * (uu.hi / (2 ^ P : Nat) + 1).toNat + P
  let s := erfSeries P uu n 0 u (Iv.pt 0)
  (((s.mul P (expIv P uu.neg)).smul 2)).div P (sqrtIv P (piIv P))

/-- erf x for a dyadic x. -/
def erfDy (P : Nat) (x : Dy) : Iv :=
  let r := erfPos P (Iv.ofDy P x.abs)
  if x.isNeg then r.neg else r

/-- The normal distribution function at a dyadic x. -/
def phiCdf (P : Nat) (x : Dy) : Iv :=
  let u := (Iv.ofDy P x.abs).div P (sqrtIv P (Iv.pt (2 * (2 ^ P : Nat))))
  let r := erfPos P u
  ((Iv.one P).add (if x.isNeg then r.neg else r)).shift (-1)

/-- The normal density at a dyadic x. -/
def phiPdf (P : Nat) (x : Dy) : Iv :=
  let e := expIv P ((Iv.ofDy P (x.mul x)).neg.shift (-1))
  e.div P (sqrtIv P ((piIv P).smul 2))

/-- e^x for a dyadic x. -/
def expDy (P : Nat) (x : Dy) : Iv := expIv P (Iv.ofDy P x)

/-- 1 / (1 + e^−x). -/
def logisticDy (P : Nat) (x : Dy) : Iv := (Iv.one P).div P ((Iv.one P).add (expDy P x.neg))

/-- tanh x. -/
def tanhDy (P : Nat) (x : Dy) : Iv :=
  let e := expDy P (x.abs.scale 1).neg
  let r := ((Iv.one P).sub e).div P ((Iv.one P).add e)
  if x.isNeg then r.neg else r

/-- The built-in curves of R297. -/
inductive Curve where
  | exp | log | tanh | logistic | erf | gelu | silu
deriving DecidableEq, Repr, Inhabited

def Curve.ofFn (n : Nat) : Option Curve :=
  if n == 0 then some .exp else if n == 1 then some .log else if n == 2 then some .tanh
  else if n == 3 then some .logistic else if n == 4 then some .erf else if n == 5 then some .gelu
  else if n == 6 then some .silu else none

def Curve.fn : Curve → Nat
  | .exp => 0 | .log => 1 | .tanh => 2 | .logistic => 3 | .erf => 4 | .gelu => 5 | .silu => 6

/-- f(x) or f′(x), enclosed at `P` places, for a finite x of moderate size (R297). -/
def curveIv (c : Curve) (deriv : Bool) (x : Dy) (P : Nat) : Iv :=
  let X := Iv.ofDy P x
  match c, deriv with
  | .exp, _ => expDy P x
  | .log, false => lnIv P x.m.natAbs x.e
  | .log, true => (Iv.pt ((2 ^ P : Nat) : Int)).div P (Iv.ofDy P x)
  | .tanh, false => tanhDy P x
  | .tanh, true => let t := tanhDy P x; (Iv.one P).sub (t.mul P t)
  | .logistic, false => logisticDy P x
  | .logistic, true => let l := logisticDy P x; l.mul P ((Iv.one P).sub l)
  | .erf, false => erfDy P x
  | .erf, true =>
    (((expIv P (Iv.ofDy P (x.mul x)).neg).smul 2)).div P (sqrtIv P (piIv P))
  | .gelu, false => X.mul P (phiCdf P x)
  | .gelu, true => (phiCdf P x).add (X.mul P (phiPdf P x))
  | .silu, false => X.mul P (logisticDy P x)
  | .silu, true =>
    let l := logisticDy P x
    l.mul P ((Iv.one P).add (X.mul P ((Iv.one P).sub l)))

/-- Both ends round to one binary32 value. -/
def roundIv (P : Nat) (a : Iv) : Option W32 :=
  let l := f32Round ⟨a.lo, -(P : Int)⟩
  let h := f32Round ⟨a.hi, -(P : Int)⟩
  if l == h then some l else none

/-- The correct rounding of a real number given by its enclosures at 320, 640 and 1,400 places. -/
def roundReal (f : Nat → Iv) : W32 :=
  match roundIv 320 (f 320) with
  | some r => r
  | none => match roundIv 640 (f 640) with
    | some r => r
    | none => match roundIv 1400 (f 1400) with
      | some r => r
      | none => f32Round ⟨(f 1400).lo, -1400⟩

/-- What a curve returns far out, where its rounding no longer depends on the argument: `none` in the range that is
computed. A value too small for binary32 is given as a nonzero dyadic that rounds to a zero of its sign (R298). -/
def curveFar (c : Curve) (deriv : Bool) (x : Dy) : Option W32 :=
  let gt : Int → Bool := fun k => (Dy.ofInt k).lt x
  let lt : Int → Bool := fun k => x.lt (Dy.ofInt k)
  let one : W32 := 0x3F800000
  match c, deriv with
  | .exp, _ => if gt 100 then some (f32Inf false) else if lt (-120) then some 0 else none
  | .log, _ => none
  | .tanh, false => if gt 30 then some one else if lt (-30) then some (f32Flip one) else none
  | .tanh, true => if gt 80 || lt (-80) then some 0 else none
  | .logistic, false => if gt 40 then some one else if lt (-120) then some 0 else none
  | .logistic, true => if gt 120 || lt (-120) then some 0 else none
  | .erf, false => if gt 7 then some one else if lt (-7) then some (f32Flip one) else none
  | .erf, true => if gt 15 || lt (-15) then some 0 else none
  | .gelu, false => if gt 20 then some (f32Round x) else if lt (-20) then some (f32Zero true) else none
  | .gelu, true => if gt 20 then some one else if lt (-20) then some (f32Zero true) else none
  | .silu, false => if gt 60 then some (f32Round x) else if lt (-130) then some (f32Zero true) else none
  | .silu, true => if gt 60 then some one else if lt (-130) then some (f32Zero true) else none

/-- The limit at +∞ or −∞ (R298); `none` where the argument lies outside the domain. -/
def curveLimit (c : Curve) (deriv neg : Bool) : Option W32 :=
  let one : W32 := 0x3F800000
  match c, deriv with
  | .exp, _ => some (if neg then 0 else f32Inf false)
  | .log, false => if neg then none else some (f32Inf false)
  | .log, true => if neg then none else some 0
  | .tanh, false => some (if neg then f32Flip one else one)
  | .tanh, true => some 0
  | .logistic, false => some (if neg then 0 else one)
  | .logistic, true => some 0
  | .erf, false => some (if neg then f32Flip one else one)
  | .erf, true => some 0
  | .gelu, false => some (if neg then 0 else f32Inf false)
  | .gelu, true => some (if neg then 0 else one)
  | .silu, false => some (if neg then 0 else f32Inf false)
  | .silu, true => some (if neg then 0 else one)

/-- An argument outside the domain: LOG below zero; its derivative at zero too (R298). -/
def curveOutside (c : Curve) (deriv : Bool) (x : W32) : Bool :=
  match c with
  | .log => if f32IsZero x then deriv else f32Neg x
  | _ => false

/-- The curves whose exact value at ±0 is zero. -/
def curveZeroAtZero (c : Curve) (deriv : Bool) : Bool :=
  !deriv && (c == .tanh || c == .erf || c == .gelu || c == .silu)

/-- CURVE.<name> and CURVE.D.<name> on one lane (R295, R297, R298). `zeroNeg` says which zero an exactly zero result
is: the spec gives no sign for it. -/
def curveEval (zeroNeg : Bool) (c : Curve) (deriv : Bool) (x : W32) : W32 :=
  if f32IsNaN x then f32NaN
  else if f32IsInf x then
    match curveLimit c deriv (f32Neg x) with
    | none => f32NaN
    | some r => if f32IsZero r then f32Zero zeroNeg else r
  else if curveOutside c deriv x then f32NaN
  else if f32IsZero x then
    (if c == .log then f32Inf true
     else if curveZeroAtZero c deriv then f32Zero zeroNeg
     else if c == .erf then roundReal (curveIv c deriv Dy.zero)
     else if c == .logistic && deriv then 0x3E800000
     else if c == .logistic || c == .gelu || c == .silu then 0x3F000000
     else 0x3F800000)
  else if c == .log && !deriv && x == 0x3F800000 then f32Zero zeroNeg
  else match curveFar c deriv (f32Val x) with
    | some r => r
    | none => roundReal (curveIv c deriv (f32Val x))

/-! Segmented quadratic tables (R253). -/

/-- The normal quantile by bisection on the upper tail: the state is the bracket at `P` places. -/
def quantBisect (P : Nat) (p : Iv) : Nat → Int → Int → Int
  | 0, lo, hi => (lo + hi) / 2
  | n + 1, lo, hi =>
    let mid := (lo + hi) / 2
    let q := (Iv.one P).sub (phiCdf P ⟨mid, -(P : Int)⟩)
    if p.hi < q.lo then quantBisect P p n mid hi else quantBisect P p n lo mid

/-- Newton steps on the upper tail. -/
def quantNewton (P : Nat) (p : Iv) : Nat → Int → Int
  | 0, z => z
  | n + 1, z =>
    let q := (Iv.one P).sub (phiCdf P ⟨z, -(P : Int)⟩)
    let d := phiPdf P ⟨z, -(P : Int)⟩
    quantNewton P p n (z + (q.lo - p.lo) * (2 ^ P : Nat) / (max 1 d.lo))

/-- Φ⁻¹(1 − p) for a dyadic p in (0, ½], enclosed (R254): a candidate, checked on both sides. -/
def quantIv (P : Nat) (p : Dy) : Iv :=
  let pi := Iv.ofDy P p
  let z := quantNewton P pi 5 (quantBisect P pi 24 0 (16 * (2 ^ P : Nat)))
  let dl : Int := (2 ^ 110 : Nat)
  let qa := (Iv.one P).sub (phiCdf P ⟨z - dl, -(P : Int)⟩)
  let qb := (Iv.one P).sub (phiCdf P ⟨z + dl, -(P : Int)⟩)
  if pi.hi ≤ qa.lo && qb.hi ≤ pi.lo then ⟨z - dl, z + dl⟩ else ⟨-(16 * (2 ^ P : Nat)), 16 * (2 ^ P : Nat)⟩

/-- h(p) = ln(−ln p) (R267). -/
def gumbelLow (P : Nat) (p : Dy) : Iv := lnOf P (lnIv P p.m.natAbs p.e).neg

/-- h′(p) = −ln(−ln(1 − p)) (R267). -/
def gumbelHigh (P : Nat) (p : Dy) : Iv :=
  let q := (Dy.ofInt 1).sub p
  (lnOf P (lnIv P q.m.natAbs q.e).neg).neg

/-- A table's shape: the octave limit and the two sub-segment widths (R253). -/
structure SegMap where
  J : Nat
  nbLo : Nat
  nbHi : Nat

/-- The map of both the normal and the noise tables (R254, R267). -/
def segMap : SegMap := ⟨32, 5, 2⟩

/-- The octave of p: j with p · 2^(j+2) in [1, 2) (R253). -/
def segOctave (p : Dy) : Nat := (-p.log2 - 2).toNat

/-- The three coefficients of a segment, each rounded once from its exact value (R253). -/
def segCoef (g : Nat → Dy → Iv) (j s nb : Nat) : W32 × W32 × W32 :=
  let at2 : Nat → Dy := fun t => ⟨(2 ^ (nb + 1) + 2 * s + t : Nat), -((j : Int) + 2) - (nb + 1)⟩
  let c0 := roundReal fun P => g P (at2 0)
  let c1 := roundReal fun P => (((g P (at2 0)).smul (-3)).add ((g P (at2 1)).smul 4)).sub (g P (at2 2))
  let c2 := roundReal fun P => (((g P (at2 0)).smul 2).sub ((g P (at2 1)).smul 4)).add ((g P (at2 2)).smul 2)
  (c0, c1, c2)

/-- Evaluation of a segmented quadratic table at a dyadic p, 0 < p < ½ (R253). -/
def segEval (g : Nat → Dy → Iv) (p : Dy) : W32 :=
  let j := segOctave p
  let y1 := (p.scale (j + 2)).sub (Dy.ofInt 1)
  let nb := if j < segMap.J then segMap.nbLo else segMap.nbHi
  let z := y1.scale nb
  let s := (z.truncAt 0).1.toNat
  let t := f32Round (z.sub (Dy.ofInt s))
  let (c0, c1, c2) := segCoef g j s nb
  f32Fma (f32Fma c2 t c1) t c0

/-- A normal variate from the words o0 and o1 (R254). -/
def normalVariate (o0 o1 : W32) : W32 :=
  let P := field o0.toNat 8 23 * 2 ^ 32 + o1.toNat
  let m := segEval quantIv ⟨(2 * P + 1 : Nat), -57⟩
  if o0.getLsbD 31 then m ||| 0x80000000 else m

/-- The noise N for the word o0 (R267). -/
def gumbelNoise (o0 : W32) : W32 :=
  let u : Dy := ⟨(2 * o0.toNat + 1 : Nat), -33⟩
  if u.lt ⟨1, -1⟩ then f32Flip (segEval gumbelLow u)
  else segEval gumbelHigh ((Dy.ofInt 1).sub u)

end Sys2Proof.Machine
end

