-- ==== Sys2Proof/Machine/Operands.lean ====
section
/-!
DEFINITION. The instruction words of a spindle: every operand form, decoded from and encoded into the 64-bit word by the
tables of R286–R301 and R305. A word with a bit set that its instruction does not use is invalid (R288): decoding checks
that encoding the instruction gives the word back.
-/
namespace Sys2Proof.Machine

/-- The scalar and vector integer operations, numbered by FN (R290, R293). -/
inductive AluOp where
  | add | sub | and | or | xor | shl | shr | sar | slt | sltu | mul | mulh | mulhu | min | max
deriving DecidableEq, Repr, Inhabited

def AluOp.code : AluOp → Nat
  | .add => 0x00
  | .sub => 0x01
  | .and => 0x02
  | .or => 0x03
  | .xor => 0x04
  | .shl => 0x05
  | .shr => 0x06
  | .sar => 0x07
  | .slt => 0x08
  | .sltu => 0x09
  | .mul => 0x0A
  | .mulh => 0x0B
  | .mulhu => 0x0C
  | .min => 0x0D
  | .max => 0x0E

def AluOp.ofCode (n : Nat) : Option AluOp :=
  if n == 0x00 then some .add else if n == 0x01 then some .sub else if n == 0x02 then some .and else
  if n == 0x03 then some .or else if n == 0x04 then some .xor else if n == 0x05 then some .shl else
  if n == 0x06 then some .shr else if n == 0x07 then some .sar else if n == 0x08 then some .slt else
  if n == 0x09 then some .sltu else if n == 0x0A then some .mul else if n == 0x0B then some .mulh else
  if n == 0x0C then some .mulhu else if n == 0x0D then some .min else if n == 0x0E then some .max else none

/-- The loads of R290, numbered by FN: signed 8, 16, 32, 64 bits, then unsigned 8, 16, 32. -/
inductive LdKind where
  | b8 | b16 | b32 | b64 | u8 | u16 | u32
deriving DecidableEq, Repr, Inhabited

def LdKind.code : LdKind → Nat
  | .b8 => 0x00
  | .b16 => 0x01
  | .b32 => 0x02
  | .b64 => 0x03
  | .u8 => 0x04
  | .u16 => 0x05
  | .u32 => 0x06

def LdKind.ofCode (n : Nat) : Option LdKind :=
  if n == 0x00 then some .b8 else if n == 0x01 then some .b16 else if n == 0x02 then some .b32 else
  if n == 0x03 then some .b64 else if n == 0x04 then some .u8 else if n == 0x05 then some .u16 else
  if n == 0x06 then some .u32 else none

/-- The stores of R290, numbered by FN. -/
inductive StKind where
  | b8 | b16 | b32 | b64
deriving DecidableEq, Repr, Inhabited

def StKind.code : StKind → Nat
  | .b8 => 0x00
  | .b16 => 0x01
  | .b32 => 0x02
  | .b64 => 0x03

def StKind.ofCode (n : Nat) : Option StKind :=
  if n == 0x00 then some .b8 else if n == 0x01 then some .b16 else if n == 0x02 then some .b32 else
  if n == 0x03 then some .b64 else none

/-- The atomics of R290, numbered by FN. -/
inductive AtomOp where
  | addI32 | addI64 | addF32 | swp32 | swp64
deriving DecidableEq, Repr, Inhabited

def AtomOp.code : AtomOp → Nat
  | .addI32 => 0x00
  | .addI64 => 0x01
  | .addF32 => 0x02
  | .swp32 => 0x03
  | .swp64 => 0x04

def AtomOp.ofCode (n : Nat) : Option AtomOp :=
  if n == 0x00 then some .addI32 else if n == 0x01 then some .addI64 else if n == 0x02 then some .addF32 else
  if n == 0x03 then some .swp32 else if n == 0x04 then some .swp64 else none

/-- The branch conditions of R290, numbered by FN. -/
inductive Cond where
  | eq | ne | lt | ge | ltu | geu
deriving DecidableEq, Repr, Inhabited

def Cond.code : Cond → Nat
  | .eq => 0x00
  | .ne => 0x01
  | .lt => 0x02
  | .ge => 0x03
  | .ltu => 0x04
  | .geu => 0x05

def Cond.ofCode (n : Nat) : Option Cond :=
  if n == 0x00 then some .eq else if n == 0x01 then some .ne else if n == 0x02 then some .lt else
  if n == 0x03 then some .ge else if n == 0x04 then some .ltu else if n == 0x05 then some .geu else none

/-- The vector F32 operations of R293 other than VRSUM, numbered by FN. -/
inductive VfOp where
  | add | sub | mul | fma | div | sqrt | min | max | abs | neg | cmpEq | cmpLt | cmpLe
deriving DecidableEq, Repr, Inhabited

def VfOp.code : VfOp → Nat
  | .add => 0x00
  | .sub => 0x01
  | .mul => 0x02
  | .fma => 0x03
  | .div => 0x04
  | .sqrt => 0x05
  | .min => 0x06
  | .max => 0x07
  | .abs => 0x08
  | .neg => 0x09
  | .cmpEq => 0x0A
  | .cmpLt => 0x0B
  | .cmpLe => 0x0C

def VfOp.ofCode (n : Nat) : Option VfOp :=
  if n == 0x00 then some .add else if n == 0x01 then some .sub else if n == 0x02 then some .mul else
  if n == 0x03 then some .fma else if n == 0x04 then some .div else if n == 0x05 then some .sqrt else
  if n == 0x06 then some .min else if n == 0x07 then some .max else if n == 0x08 then some .abs else
  if n == 0x09 then some .neg else if n == 0x0A then some .cmpEq else if n == 0x0B then some .cmpLt else
  if n == 0x0C then some .cmpLe else none

/-- The vector integer comparisons of R293. -/
inductive ViCmp where
  | eq | lt | ltu
deriving DecidableEq, Repr, Inhabited

def ViCmp.code : ViCmp → Nat
  | .eq => 0x10
  | .lt => 0x11
  | .ltu => 0x12

def ViCmp.ofCode (n : Nat) : Option ViCmp :=
  if n == 0x10 then some .eq else if n == 0x11 then some .lt else if n == 0x12 then some .ltu else none

/-- The mask operations of R293. -/
inductive MaskOp where
  | and | or | xor | not
deriving DecidableEq, Repr, Inhabited

def MaskOp.code : MaskOp → Nat
  | .and => 0x00
  | .or => 0x01
  | .xor => 0x02
  | .not => 0x03

def MaskOp.ofCode (n : Nat) : Option MaskOp :=
  if n == 0x00 then some .and else if n == 0x01 then some .or else if n == 0x02 then some .xor else
  if n == 0x03 then some .not else none

/-- The knot instructions of R309, numbered by FN. -/
inductive KnotOp where
  | add | set | wge | weq | rd
deriving DecidableEq, Repr, Inhabited

def KnotOp.code : KnotOp → Nat
  | .add => 0x00
  | .set => 0x01
  | .wge => 0x02
  | .weq => 0x03
  | .rd => 0x04

def KnotOp.ofCode (n : Nat) : Option KnotOp :=
  if n == 0x00 then some .add else if n == 0x01 then some .set else if n == 0x02 then some .wge else
  if n == 0x03 then some .weq else if n == 0x04 then some .rd else none

/-- A register field (R286). -/
abbrev Reg := BitVec 5
/-- A mask register field: its top two bits are zero (R286). -/
abbrev MReg := BitVec 3

/-- Predication: `none` with PRED_EN = 0, which keeps PRED_M as the word gives it (R287, R293). -/
structure Pred where
  en : Bool
  m : MReg
deriving DecidableEq, Repr, Inhabited

/-- The planes a0 and a1 (R276). -/
inductive Plane where
  | a0 | a1
deriving DecidableEq, Repr, Inhabited

def Plane.code : Plane → Nat
  | .a0 => 0
  | .a1 => 1

def Plane.ofCode (n : Nat) : Option Plane := if n == 0 then some .a0 else if n == 1 then some .a1 else none

/-- MODE of formats C and X: 0b11 is invalid (R287). -/
def Mode.ofCode (n : Nat) : Option Mode :=
  if n == 0 then some .rne else if n == 1 then some .rtz else if n == 2 then some .stoch else none

def Mode.code : Mode → Nat
  | .rne => 0
  | .rtz => 1
  | .stoch => 2
  | .up => 3

/-- A rounding option: the mode, and the seed slot that only STOCH names (R288, R299, R300). -/
inductive Rounding where
  | rne | rtz
  | stoch (slot : BitVec 4)
deriving DecidableEq, Repr, Inhabited

def Rounding.mode : Rounding → Mode
  | .rne => .rne
  | .rtz => .rtz
  | .stoch _ => .stoch

def Rounding.slot : Rounding → Nat
  | .stoch s => s.toNat
  | _ => 0

def Rounding.of (mode slot : Nat) : Option Rounding :=
  if mode == 0 then (if slot == 0 then some .rne else none)
  else if mode == 1 then (if slot == 0 then some .rtz else none)
  else if mode == 2 then some (.stoch (BitVec.ofNat 4 slot)) else none

/-- RESCALE and RESCALE_INV of format C: never both (R288). -/
inductive Rescale where
  | none | mul | inv
deriving DecidableEq, Repr, Inhabited

def Rescale.bits : Rescale → Nat
  | .none => 0
  | .mul => 2
  | .inv => 1

def Rescale.ofBits (n : Nat) : Option Rescale :=
  if n == 0 then some .none else if n == 2 then some .mul else if n == 1 then some .inv else Option.none

/-- A decoded instruction of a station program (R289–R311). -/
inductive SpInstr where
  | alu (op : AluOp) (d a b : Reg)
  | aluImm (op : AluOp) (d a : Reg) (imm : BitVec 38)
  | li (d : Reg) (imm : BitVec 48)
  | ld (k : LdKind) (d a : Reg) (imm : BitVec 38)
  | st (k : StKind) (d a : Reg) (imm : BitVec 38)
  | ldD (k : LdKind) (d a : Reg) (imm : BitVec 28)
  | stD (k : StKind) (a b : Reg) (imm : BitVec 28)
  | atomD (op : AtomOp) (d a b : Reg) (imm : BitVec 28)
  | atom (op : AtomOp) (d a b : Reg)
  | branch (c : Cond) (a b : Reg) (imm : BitVec 28)
  | jal (d : Reg) (imm : BitVec 38)
  | jr (d a : Reg)
  | movs (d : Reg) (sr : BitVec 5)
  | endProg
  | vf (op : VfOp) (d a b c : Reg) (p : Pred)
  | vrsum (d a : Reg) (p : Pred)
  | vi (op : AluOp) (d a b : Reg) (p : Pred)
  | viCmp (op : ViCmp) (d : MReg) (a b : Reg) (p : Pred)
  | vld (d a : Reg) (imm : BitVec 28)
  | vst (d a : Reg) (imm : BitVec 28)
  | mask (op : MaskOp) (d a b : MReg) (p : Pred)
  | mpop (d : Reg) (a : MReg) (p : Pred)
  | vbcast (d a : Reg) (p : Pred)
  | vext (d a b : Reg) (p : Pred)
  | vperm (d a b : Reg) (p : Pred)
  | vsel (d a b : Reg) (c : MReg) (p : Pred)
  | cvt (dst src : Fmt) (d a b c : Reg) (r : Rounding) (s : Rescale)
  | curve (c : Curve) (deriv : Bool) (d a : Reg) (p : Pred)
  | gumbel (d a : Reg) (p : Pred)
  | fmmLdw (f : Fmt) (a : Reg) (h : Bool)
  | fmm (f : Fmt) (a : Reg) (pl : Plane) (xh swap : Bool)
  | bmmLdb (f : Fmt) (a : Reg) (h red : Bool)
  | bmm (f : Fmt) (a : Reg) (pl : Plane) (xh swap red : Bool)
  | bmmDefer (a : Reg)
  | bmmDone
  | yieldQ (a : Reg)
  | yieldK (a b : Reg)
  | bmmFlush
  | escTerm (a b : Reg) (pl : Plane)
  | accOpen (pl : Plane) (b c : Reg) (asrc : Bool)
  | accRnd (f : Fmt) (d a b : Reg) (pl : Option Plane) (half fin : Bool) (r : Rounding)
  | accSave (d a b : Reg) (pl : Plane) (half fin : Bool)
  | accAddx (a : Reg) (pl : Plane) (half : Bool)
  | accClear (pl : Plane)
  | pull (d a b : Reg)
  | pullH (d a b : Reg)
  | pullRel (a : Reg)
  | push (d a b : Reg)
  | pushClose (a : Reg)
  | pullA (turn : Option Fmt) (d a b c : Reg) (exact : Bool)
  | pushA (d a b : Reg)
  | knot (op : KnotOp) (d a b : Reg)
  | rngU (d a b : Reg) (slot : BitVec 4)
  | rngN (d a b : Reg) (slot : BitVec 4)
  | rngMask (a : Reg)
  | rngSample (a : Reg)
  | evtMark (a : Reg) (code : BitVec 16)
  | evtTrig (a : Reg) (code : BitVec 16)
  | bankGive (bank : BitVec 4) (owner : BitVec 2)
  | bankTake (bank : BitVec 4)
  | bankShare (bank : BitVec 4) (value : Bool)
deriving DecidableEq, Repr, Inhabited

/-- OP and FN (R286). -/
def wOpFn (op fn : Nat) : Nat := op * 2 ^ 56 + fn * 2 ^ 48
def wD (d : Reg) : Nat := d.toNat * 2 ^ 43
def wA (a : Reg) : Nat := a.toNat * 2 ^ 38
def wB (b : Reg) : Nat := b.toNat * 2 ^ 33
def wC (c : Reg) : Nat := c.toNat * 2 ^ 28
def wDm (d : MReg) : Nat := d.toNat * 2 ^ 43
def wAm (a : MReg) : Nat := a.toNat * 2 ^ 38
def wBm (b : MReg) : Nat := b.toNat * 2 ^ 33
def wCm (c : MReg) : Nat := c.toNat * 2 ^ 28
def wPred (p : Pred) : Nat := b2n p.en * 2 ^ 27 + p.m.toNat * 2 ^ 24
/-- One flag bit of format X (R287). -/
def wF (b : Bool) (i : Nat) : Nat := b2n b * 2 ^ i
def wPlane (p : Plane) : Nat := p.code * 2 ^ 26
def wRnd (r : Rounding) : Nat := r.mode.code * 2 ^ 19 + r.slot * 2 ^ 15

/-- VCMP takes a mask destination, VFMA a third source, VSQRT, VABS and VNEG one source (R293). -/
def VfOp.isCmp : VfOp → Bool
  | .cmpEq | .cmpLt | .cmpLe => true
  | _ => false
def VfOp.unary : VfOp → Bool
  | .sqrt | .abs | .neg => true
  | _ => false
def VfOp.wD (op : VfOp) (d : Reg) : Nat := if op.isCmp then (d.toNat % 8) * 2 ^ 43 else d.toNat * 2 ^ 43
def VfOp.wB (op : VfOp) (b : Reg) : Nat := if op.unary then 0 else b.toNat * 2 ^ 33
def VfOp.wC (op : VfOp) (c : Reg) : Nat := if op == .fma then c.toNat * 2 ^ 28 else 0

/-- The 64-bit word of an instruction, as a number (R286, R287, R290, R293, R297, R299–R301, R305). -/
def encodeNat : SpInstr → Nat
  | .alu op d a b => wOpFn 0x01 op.code + wD d + wA a + wB b
  | .aluImm op d a imm => wOpFn 0x02 op.code + wD d + wA a + imm.toNat
  | .li d imm => 0x03 * 2 ^ 56 + d.toNat * 2 ^ 51 + imm.toNat
  | .ld k d a imm => wOpFn 0x04 k.code + wD d + wA a + imm.toNat
  | .st k d a imm => wOpFn 0x05 k.code + wD d + wA a + imm.toNat
  | .ldD k d a imm => wOpFn 0x06 k.code + wD d + wA a + imm.toNat
  | .stD k a b imm => wOpFn 0x06 (0x10 + k.code) + wA a + wB b + imm.toNat
  | .atomD op d a b imm => wOpFn 0x06 (0x20 + op.code) + wD d + wA a + wB b + imm.toNat
  | .atom op d a b => wOpFn 0x07 op.code + wD d + wA a + wB b
  | .branch c a b imm => wOpFn 0x08 c.code + wA a + wB b + imm.toNat
  | .jal d imm => wOpFn 0x09 0 + wD d + imm.toNat
  | .jr d a => wOpFn 0x0A 0 + wD d + wA a
  | .movs d sr => wOpFn 0x0B 0 + wD d + wA sr
  | .endProg => wOpFn 0x0C 0
  | .vf op d a b c p => wOpFn 0x20 op.code + op.wD d + wA a + op.wB b + op.wC c + wPred p
  | .vrsum d a p => wOpFn 0x20 0x0D + wD d + wA a + wPred p
  | .vi op d a b p => wOpFn 0x21 op.code + wD d + wA a + wB b + wPred p
  | .viCmp op d a b p => wOpFn 0x21 op.code + wDm d + wA a + wB b + wPred p
  | .vld d a imm => wOpFn 0x22 0 + wD d + wA a + imm.toNat
  | .vst d a imm => wOpFn 0x22 1 + wD d + wA a + imm.toNat
  | .mask op d a b p => wOpFn 0x23 op.code + wDm d + wAm a + (if op == .not then 0 else wBm b) + wPred p
  | .mpop d a p => wOpFn 0x23 0x04 + wD d + wAm a + wPred p
  | .vbcast d a p => wOpFn 0x24 0 + wD d + wA a + wPred p
  | .vext d a b p => wOpFn 0x24 1 + wD d + wA a + wB b + wPred p
  | .vperm d a b p => wOpFn 0x24 2 + wD d + wA a + wB b + wPred p
  | .vsel d a b c p => wOpFn 0x24 3 + wD d + wA a + wB b + wCm c + wPred p
  | .cvt dst src d a b c r s =>
    wOpFn 0x28 dst.code + wD d + wA a + wB b + wC c + src.code * 2 ^ 20 + r.mode.code * 2 ^ 18 + r.slot * 2 ^ 14
      + s.bits * 2 ^ 12
  | .curve c dv d a p => wOpFn 0x29 (c.fn + b2n dv * 0x80) + wD d + wA a + wPred p
  | .gumbel d a p => wOpFn 0x29 0x10 + wD d + wA a + wPred p
  | .fmmLdw f a h => wOpFn 0x30 f.code + wA a + wF h 24
  | .fmm f a pl xh sw => wOpFn 0x31 f.code + wA a + wPlane pl + wF xh 25 + wF sw 23
  | .bmmLdb f a h red => wOpFn 0x34 f.code + wA a + wF h 24 + wF red 22
  | .bmm f a pl xh sw red => wOpFn 0x35 f.code + wA a + wPlane pl + wF xh 25 + wF sw 23 + wF red 22
  | .bmmDefer a => wOpFn 0x36 0 + wA a
  | .bmmDone => wOpFn 0x36 1
  | .yieldQ a => wOpFn 0x36 2 + wA a
  | .yieldK a b => wOpFn 0x36 3 + wA a + wB b
  | .bmmFlush => wOpFn 0x36 4
  | .escTerm a b pl => wOpFn 0x38 0 + wA a + wB b + wPlane pl
  | .accOpen pl b c asrc => wOpFn 0x3C 0 + wB b + wC c + wPlane pl + wF asrc 14
  | .accRnd f d a b pl half fin r =>
    wOpFn 0x3D f.code + wD d + wA a + wB b + (match pl with | some p => wPlane p | none => 3 * 2 ^ 26)
      + wF half 25 + wF fin 21 + wRnd r
  | .accSave d a b pl half fin => wOpFn 0x3E 0x30 + wD d + wA a + wB b + wPlane pl + wF half 25 + wF fin 21
  | .accAddx a pl half => wOpFn 0x3F 0 + wA a + wPlane pl + wF half 25
  | .accClear pl => wOpFn 0x3F 1 + wPlane pl
  | .pull d a b => wOpFn 0x40 0 + wD d + wA a + wB b
  | .pullH d a b => wOpFn 0x40 1 + wD d + wA a + wB b
  | .pullRel a => wOpFn 0x40 2 + wA a
  | .push d a b => wOpFn 0x41 0 + wD d + wA a + wB b
  | .pushClose a => wOpFn 0x41 1 + wA a
  | .pullA turn d a b c exact =>
    wOpFn 0x42 (match turn with | some f => f.code | none => 0) + wD d + wA a + wB b + wC c
      + wF turn.isSome 13 + wF exact 12
  | .pushA d a b => wOpFn 0x43 0 + wD d + wA a + wB b
  | .knot op d a b => wOpFn 0x44 op.code + wD d + wA a + wB b
  | .rngU d a b slot => wOpFn 0x48 0 + wD d + wA a + wB b + slot.toNat * 2 ^ 15
  | .rngN d a b slot => wOpFn 0x48 1 + wD d + wA a + wB b + slot.toNat * 2 ^ 15
  | .rngMask a => wOpFn 0x48 2 + wA a
  | .rngSample a => wOpFn 0x48 3 + wA a
  | .evtMark a code => wOpFn 0x4C 0 + wA a + code.toNat
  | .evtTrig a code => wOpFn 0x4C 1 + wA a + code.toNat
  | .bankGive bank owner => wOpFn 0x50 0 + owner.toNat * 16 + bank.toNat
  | .bankTake bank => wOpFn 0x50 1 + bank.toNat
  | .bankShare bank v => wOpFn 0x50 2 + wF v 8 + bank.toNat

/-- The 64-bit word of an instruction. -/
def encodeSp (i : SpInstr) : W64 := BitVec.ofNat 64 (encodeNat i)

/-- The fields of a word that an instruction can use (R286, R287). -/
def gD (w : Nat) : Reg := BitVec.ofNat 5 (field w 43 5)
def gA (w : Nat) : Reg := BitVec.ofNat 5 (field w 38 5)
def gB (w : Nat) : Reg := BitVec.ofNat 5 (field w 33 5)
def gC (w : Nat) : Reg := BitVec.ofNat 5 (field w 28 5)
def gDm (w : Nat) : MReg := BitVec.ofNat 3 (field w 43 3)
def gAm (w : Nat) : MReg := BitVec.ofNat 3 (field w 38 3)
def gBm (w : Nat) : MReg := BitVec.ofNat 3 (field w 33 3)
def gCm (w : Nat) : MReg := BitVec.ofNat 3 (field w 28 3)
def gPred (w : Nat) : Pred := ⟨bit w 27, BitVec.ofNat 3 (field w 24 3)⟩
def gI28 (w : Nat) : BitVec 28 := BitVec.ofNat 28 (field w 0 28)
def gI38 (w : Nat) : BitVec 38 := BitVec.ofNat 38 (field w 0 38)
def gPlane (w : Nat) : Option Plane := Plane.ofCode (field w 26 2)
def gRndX (w : Nat) : Option Rounding := Rounding.of (field w 19 2) (field w 15 4)

/-- The formats of FMM (R301). -/
def fmmFmt (n : Nat) : Option Fmt :=
  if n == 0x01 || n == 0x03 || n == 0x04 || n == 0x05 then Fmt.ofCode n else none
/-- The formats of BMM (R301). -/
def bmmFmt (n : Nat) : Option Fmt := if n == 0x11 || n == 0x12 then Fmt.ofCode n else fmmFmt n
/-- The source formats of CVT: N4 covers 0x02 (R299). -/
def cvtSrc (n : Nat) : Option Fmt := if n == 0x02 then none else Fmt.ofCode n

/-- The instruction that a word's OP and FN name, read from its fields; bits it does not use are looked at afterwards. -/
def decodeRaw (w : Nat) : Option SpInstr :=
  let op := field w 56 8
  let fn := field w 48 8
  let d := gD w
  let a := gA w
  let b := gB w
  let c := gC w
  let p := gPred w
  if op == 0x01 then (AluOp.ofCode fn).map fun o => .alu o d a b
  else if op == 0x02 then (AluOp.ofCode fn).map fun o => .aluImm o d a (gI38 w)
  else if op == 0x03 then some (.li (BitVec.ofNat 5 (field w 51 5)) (BitVec.ofNat 48 (field w 0 48)))
  else if op == 0x04 then (LdKind.ofCode fn).map fun k => .ld k d a (gI38 w)
  else if op == 0x05 then (StKind.ofCode fn).map fun k => .st k d a (gI38 w)
  else if op == 0x06 then
    if fn < 0x10 then (LdKind.ofCode fn).map fun k => .ldD k d a (gI28 w)
    else if fn < 0x20 then (StKind.ofCode (fn - 0x10)).map fun k => .stD k a b (gI28 w)
    else (AtomOp.ofCode (fn - 0x20)).map fun o => .atomD o d a b (gI28 w)
  else if op == 0x07 then (AtomOp.ofCode fn).map fun o => .atom o d a b
  else if op == 0x08 then (Cond.ofCode fn).map fun k => .branch k a b (gI28 w)
  else if op == 0x09 then if fn == 0 then some (.jal d (gI38 w)) else none
  else if op == 0x0A then if fn == 0 then some (.jr d a) else none
  else if op == 0x0B then if fn == 0 then some (.movs d a) else none
  else if op == 0x0C then if fn == 0 then some .endProg else none
  else if op == 0x20 then
    if fn == 0x0D then some (.vrsum d a p)
    else (VfOp.ofCode fn).map fun o =>
      .vf o (if o.isCmp then BitVec.ofNat 5 (field w 43 3) else d) a (if o.unary then 0 else b)
        (if o == .fma then c else 0) p
  else if op == 0x21 then
    match ViCmp.ofCode fn with
    | some o => some (.viCmp o (gDm w) a b p)
    | none => (AluOp.ofCode fn).map fun o => .vi o d a b p
  else if op == 0x22 then
    if fn == 0 then some (.vld d a (gI28 w)) else if fn == 1 then some (.vst d a (gI28 w)) else none
  else if op == 0x23 then
    if fn == 4 then some (.mpop d (gAm w) p)
    else (MaskOp.ofCode fn).map fun o => .mask o (gDm w) (gAm w) (if o == .not then 0 else gBm w) p
  else if op == 0x24 then
    if fn == 0 then some (.vbcast d a p) else if fn == 1 then some (.vext d a b p)
    else if fn == 2 then some (.vperm d a b p) else if fn == 3 then some (.vsel d a b (gCm w) p) else none
  else if op == 0x28 then
    match Fmt.ofCode fn, cvtSrc (field w 20 8), Rounding.of (field w 18 2) (field w 14 4), Rescale.ofBits (field w 12 2) with
    | some dst, some src, some r, some s => some (.cvt dst src d a b c r s)
    | _, _, _, _ => none
  else if op == 0x29 then
    if fn == 0x10 then some (.gumbel d a p)
    else (Curve.ofFn (fn % 0x80)).map fun k => .curve k (decide (0x80 ≤ fn)) d a p
  else if op == 0x30 then (fmmFmt fn).map fun f => .fmmLdw f a (bit w 24)
  else if op == 0x31 then
    match fmmFmt fn, gPlane w with
    | some f, some pl => some (.fmm f a pl (bit w 25) (bit w 23))
    | _, _ => none
  else if op == 0x34 then (bmmFmt fn).map fun f => .bmmLdb f a (bit w 24) (bit w 22)
  else if op == 0x35 then
    match bmmFmt fn, gPlane w with
    | some f, some pl => some (.bmm f a pl (bit w 25) (bit w 23) (bit w 22))
    | _, _ => none
  else if op == 0x36 then
    if fn == 0 then some (.bmmDefer a) else if fn == 1 then some .bmmDone else if fn == 2 then some (.yieldQ a)
    else if fn == 3 then some (.yieldK a b) else if fn == 4 then some .bmmFlush else none
  else if op == 0x38 then if fn == 0 then (gPlane w).map fun pl => .escTerm a b pl else none
  else if op == 0x3C then if fn == 0 then (gPlane w).map fun pl => .accOpen pl b c (bit w 14) else none
  else if op == 0x3D then
    match Fmt.ofCode fn, gRndX w with
    | some f, some r =>
      if field w 26 2 == 3 then some (.accRnd f d a b none (bit w 25) (bit w 21) r)
      else (gPlane w).map fun pl => .accRnd f d a b (some pl) (bit w 25) (bit w 21) r
    | _, _ => none
  else if op == 0x3E then
    if fn == 0x30 then (gPlane w).map fun pl => .accSave d a b pl (bit w 25) (bit w 21) else none
  else if op == 0x3F then
    if fn == 0 then (gPlane w).map fun pl => .accAddx a pl (bit w 25)
    else if fn == 1 then (gPlane w).map fun pl => .accClear pl else none
  else if op == 0x40 then
    if fn == 0 then some (.pull d a b) else if fn == 1 then some (.pullH d a b)
    else if fn == 2 then some (.pullRel a) else none
  else if op == 0x41 then if fn == 0 then some (.push d a b) else if fn == 1 then some (.pushClose a) else none
  else if op == 0x42 then
    if fn == 0 then (if bit w 13 then none else some (.pullA none d a b c (bit w 12)))
    else if bit w 13 then (Fmt.ofCode fn).map fun f => .pullA (some f) d a b c (bit w 12) else none
  else if op == 0x43 then if fn == 0 then some (.pushA d a b) else none
  else if op == 0x44 then (KnotOp.ofCode fn).map fun o => .knot o d a b
  else if op == 0x48 then
    if fn == 0 then some (.rngU d a b (BitVec.ofNat 4 (field w 15 4)))
    else if fn == 1 then some (.rngN d a b (BitVec.ofNat 4 (field w 15 4)))
    else if fn == 2 then some (.rngMask a) else if fn == 3 then some (.rngSample a) else none
  else if op == 0x4C then
    if fn == 0 then some (.evtMark a (BitVec.ofNat 16 (field w 0 16)))
    else if fn == 1 then some (.evtTrig a (BitVec.ofNat 16 (field w 0 16))) else none
  else if op == 0x50 then
    if fn == 0 then
      (if field w 4 2 == 0 then none else some (.bankGive (BitVec.ofNat 4 (field w 0 4)) (BitVec.ofNat 2 (field w 4 2))))
    else if fn == 1 then some (.bankTake (BitVec.ofNat 4 (field w 0 4)))
    else if fn == 2 then some (.bankShare (BitVec.ofNat 4 (field w 0 4)) (bit w 8)) else none
  else none

/-- The instruction of a word, or none where the word is invalid (R288). That BMM.DONE is valid in deferred mode only
is looked at where it issues. -/
def decodeSp (w : W64) : Option SpInstr :=
  match decodeRaw w.toNat with
  | some i => if encodeNat i == w.toNat then some i else none
  | none => none

/-- An instruction whose operands the encoding admits: formats of its suffix (R299–R301), operands it does not use zero,
BANK.GIVE to another owner than CORE (R315). -/
def SpInstr.wf : SpInstr → Bool
  | .vf op d _ b c _ =>
    (!op.isCmp || decide (d.toNat < 8)) && (!op.unary || b == 0) && (op == .fma || c == 0)
  | .mask op _ _ b _ => op != .not || b == 0
  | .cvt _ src _ _ _ _ _ _ => src != .n4b
  | .fmmLdw f _ _ => (fmmFmt f.code).isSome
  | .fmm f _ _ _ _ => (fmmFmt f.code).isSome
  | .bmmLdb f _ _ _ => (bmmFmt f.code).isSome
  | .bmm f _ _ _ _ _ => (bmmFmt f.code).isSome
  | .bankGive _ owner => owner != 0
  | _ => true

end Sys2Proof.Machine
end

