-- ==== Sys2Proof/Machine/Keccak.lean ====
section
/-!
DEFINITION. SHAKE256 (FIPS 202), cSHAKE256 and KMAC256 (SP 800-185), which the spec names for seeds (R244), digests,
command tags and attestation.
-/
namespace Sys2Proof.Machine

/-- The lanes that the rho and pi steps walk through, with the offset of each: lane (1, 0) first, then from (x, y) to (y, 2 x + 3 y), the
offsets being the triangular numbers; lanes are numbered 5 y + x. -/
def rhoWalk : Nat → Nat → Nat → Nat → List (Nat × Nat)
  | 0, _, _, _ => []
  | n + 1, t, x, y => (5 * y + x, (t + 1) * (t + 2) / 2 % 64) :: rhoWalk n (t + 1) y ((2 * x + 3 * y) % 5)

/-- Rotation offset of a lane in the rho step; lane 0 stays. -/
def rhoOff (i : Nat) : Nat := ((rhoWalk 24 0 1 0).lookup i).getD 0

/-- One step of the shift register of the iota step, x⁸ + x⁶ + x⁵ + x⁴ + 1. -/
def iotaStep (r : Nat) : Nat := if r < 128 then 2 * r else (2 * r - 256) ^^^ 0x71

/-- The constant of a round from the register's present contents: output bit `j` goes to bit 2^j − 1, for j from `7 - n` on. -/
def iotaConst : Nat → Nat → Nat
  | 0, _ => 0
  | n + 1, r => r % 2 * 2 ^ (2 ^ (6 - n) - 1) + iotaConst n (iotaStep r)

/-- The round constants of `n` rounds. -/
def iotaRounds : Nat → Nat → List W64
  | 0, _ => []
  | n + 1, r => BitVec.ofNat 64 (iotaConst 7 r) :: iotaRounds n (Nat.repeat iotaStep 7 r)

/-- One round of Keccak-f[1600] on 25 lanes. -/
def keccakRound (a : List W64) (rc : W64) : List W64 :=
  let l : List W64 → Nat → W64 := fun s i => s.getD i 0
  let c := (List.range 5).map fun x => l a x ^^^ l a (x + 5) ^^^ l a (x + 10) ^^^ l a (x + 15) ^^^ l a (x + 20)
  let d := (List.range 5).map fun x => l c ((x + 4) % 5) ^^^ (l c ((x + 1) % 5)).rotateLeft 1
  let t := (List.range 25).map fun i => (l a i ^^^ l d (i % 5)).rotateLeft (rhoOff i)
  -- pi: lane (x, y) takes lane (x + 3 y, x)
  let b := (List.range 25).map fun i => l t (5 * (i % 5) + (i % 5 + 3 * (i / 5)) % 5)
  (List.range 25).map fun i =>
    let v := l b i ^^^ (~~~(l b (5 * (i / 5) + (i + 1) % 5)) &&& l b (5 * (i / 5) + (i + 2) % 5))
    if i == 0 then v ^^^ rc else v

def keccakF (a : List W64) : List W64 := (iotaRounds 24 1).foldl keccakRound a

/-- XORs a 136-byte block into the state. -/
def absorbBlock (a : List W64) (blk : Bytes) : List W64 :=
  keccakF ((List.range 25).map fun i =>
    a.getD i 0 ^^^ (if i < 17 then BitVec.ofNat 64 (leNat ((blk.drop (8 * i)).take 8)) else 0))

/-- Absorbs `n` blocks. -/
def absorb : Nat → List W64 → Bytes → List W64
  | 0, a, _ => a
  | n + 1, a, bs => absorb n (absorbBlock a (bs.take 136)) (bs.drop 136)

/-- Squeezes `n` blocks of 136 bytes. -/
def squeeze : Nat → List W64 → Bytes
  | 0, _ => []
  | n + 1, a => ((a.take 17).flatMap fun w => leBytes 8 w.toNat) ++ squeeze n (keccakF a)

/-- The sponge at rate 136 with a domain suffix and pad10*1. -/
def sponge (suffix : Byte) (msg : Bytes) (n : Nat) : Bytes :=
  let pad := 136 - msg.length % 136
  let tail : Bytes := if pad == 1 then [suffix ||| 0x80] else suffix :: zeros (pad - 2) ++ [0x80]
  let m := msg ++ tail
  (squeeze (n / 136 + 1) (absorb (m.length / 136) (List.replicate 25 0) m)).take n

/-- SHAKE256 with an output of `n` bytes. -/
def shake256 (msg : Bytes) (n : Nat) : Bytes := sponge 0x1F msg n

/-- The least number of bytes, at least one, that holds a value. -/
def byteLen (v : Nat) : Nat := max 1 ((Nat.log2 v + 8) / 8)
def leftEncode (v : Nat) : Bytes := let n := byteLen v; leBytes 1 n ++ beBytes n v
def rightEncode (v : Nat) : Bytes := let n := byteLen v; beBytes n v ++ leBytes 1 n
def encodeString (s : Bytes) : Bytes := leftEncode (8 * s.length) ++ s
def bytepad (x : Bytes) (w : Nat) : Bytes := let m := leftEncode w ++ x; m ++ zeros (roundUp m.length w - m.length)

/-- cSHAKE256 with function name and customization strings (SP 800-185). -/
def cshake256 (msg : Bytes) (n : Nat) (name custom : Bytes) : Bytes :=
  if name.isEmpty && custom.isEmpty then shake256 msg n
  else sponge 0x04 (bytepad (encodeString name ++ encodeString custom) 136 ++ msg) n

/-- KMAC256 (SP 800-185), output of `n` bytes. -/
def kmac256 (key msg : Bytes) (n : Nat) (custom : Bytes) : Bytes :=
  cshake256 (bytepad (encodeString key) 136 ++ msg ++ rightEncode (8 * n)) n [0x4B, 0x4D, 0x41, 0x43] custom

/-- The bytes of an ASCII string. -/
def ascii (s : String) : Bytes := s.toList.map fun c => BitVec.ofNat 8 c.toNat

end Sys2Proof.Machine
end

