-- ==== Sys2Proof/Machine/Rng.lean ====
section
/-!
DEFINITION. The counter-based generator: slot keys, counter blocks and the ten rounds (R244–R248, R250–R256).
-/
namespace Sys2Proof.Machine

/-- The four words of a counter block or of an output. -/
structure Ctr where
  c0 : W32
  c1 : W32
  c2 : W32
  c3 : W32
deriving DecidableEq, Repr, Inhabited

/-- The two key words of a seed slot (R244). -/
structure SlotKey where
  k0 : W32
  k1 : W32
deriving DecidableEq, Repr, Inhabited

/-- The key of a 32-byte seed: SHAKE256 of the seed and the seven letters TQD-RNG, read little-endian (R244). -/
def slotKey (seed : Bytes) : SlotKey :=
  let h := shake256 (fitBytes 32 seed ++ ascii "TQD-RNG") 8
  ⟨BitVec.ofNat 32 (leAt h 0 4), BitVec.ofNat 32 (leAt h 4 4)⟩

/-- Upper and lower word of the full product of two 32-bit words. -/
def mul64 (a b : W32) : W32 × W32 :=
  let p := a.toNat * b.toNat
  (BitVec.ofNat 32 (p / 2 ^ 32), BitVec.ofNat 32 p)

/-- One round (R247). -/
def mixRound (c : Ctr) (k : SlotKey) : Ctr × SlotKey :=
  let (hi0, lo0) := mul64 0xD2B74407 c.c0
  let (hi1, lo1) := mul64 0xCA5A8263 c.c2
  (⟨hi1 ^^^ c.c1 ^^^ k.k0, lo1, hi0 ^^^ c.c3 ^^^ k.k1, lo0⟩, ⟨k.k0 + 0x9E3779B9, k.k1 + 0xBB67AE85⟩)

def mixRounds : Nat → Ctr → SlotKey → Ctr
  | 0, c, _ => c
  | n + 1, c, k => let r := mixRound c k; mixRounds n r.1 r.2

/-- The generator: ten rounds from the slot's key (R247). -/
def mix (c : Ctr) (k : SlotKey) : Ctr := mixRounds 10 c k

/-- The counter block of a draw (R245). -/
def counterBlock (pos tensor purpose serial : Nat) : Ctr :=
  { c0 := BitVec.ofNat 32 pos, c1 := BitVec.ofNat 32 (pos / 2 ^ 32), c2 := BitVec.ofNat 32 tensor,
    c3 := BitVec.ofNat 32 (purpose * 2 ^ 24 + serial % 2 ^ 24) }

/-- The position of an element of a tile in the logical tensor of width W (R248). -/
def elementPos (W row col i : Nat) : Nat := ((64 * row + i / 64) * W + 64 * col + i % 64) % 2 ^ 64

/-- The rounding word of an element (R250): o0 with purpose 0x01. -/
def roundWord (k : SlotKey) (W tensor row col serial i : Nat) : Nat :=
  (mix (counterBlock (elementPos W row col i) tensor 0x01 serial) k).c0.toNat

/-- The 512-byte keep-mask of a tile (R223, R224, R251). -/
def maskImage (k : SlotKey) (W tensor row col serial thresh : Nat) : Bytes :=
  (List.range 512).map fun g =>
    BitVec.ofNat 8 ((List.range 8).foldl (fun acc b =>
      let o := (mix (counterBlock (elementPos W row col (8 * g + b)) tensor 0x02 serial) k).c0.toNat
      acc + b2n (decide (thresh ≤ o / 2 ^ 16)) * 2 ^ b) 0)

end Sys2Proof.Machine
end

