-- ==== Sys2Proof/Machine/SpindleState.lean ====
section
/-!
DEFINITION. The state of spindles, skeins, ply units, sampling units, stations, queues and knots (R90–R354), as plain data.
-/
namespace Sys2Proof.Machine

/-- RUNSTATE of SPD_STAT (R322). -/
inductive RunState where
  | idle | run | waitQueue | waitKnot | waitTransfer | waitTracker | waitArray | ended | stopped
deriving DecidableEq, Repr, Inhabited

def RunState.code : RunState → Nat
  | .idle => 0 | .run => 1 | .waitQueue => 2 | .waitKnot => 3 | .waitTransfer => 4 | .waitTracker => 5
  | .waitArray => 6 | .ended => 7 | .stopped => 8

/-- A weight block of an array: its reduction half, the 64 block exponents, 64 × 32 units with their escape marks
(R90, R145, R146), and the side-list values of the half by element position. -/
structure WBlock where
  half : Nat
  fmt : Fmt
  exps : List Nat
  units : List Int
  escs : List (Nat × Nat × W32)
deriving DecidableEq, Repr, Inhabited

/-- One of the two arrays: shadow and resident block (R90, R94, R95, R145). -/
structure ArraySt where
  shadow : Option WBlock
  resident : Option WBlock
deriving DecidableEq, Repr, Inhabited

/-- The units whose work queues in an array's input buffer or in the escape lane (R283). -/
inductive ArrayKind where
  | fwd | bwd | esc
deriving DecidableEq, Repr, Inhabited

/-- One exact term: row, column and value (R109). -/
structure Term where
  row : Nat
  col : Nat
  v : Dy
deriving DecidableEq, Repr, Inhabited

/-- An array or escape-lane instruction that has issued and not yet retired: its plane and the terms it adds; a weight load adds none and
names no plane (R34, R283). -/
structure Pass where
  kind : ArrayKind
  plane : Option Plane
  terms : List Term
deriving DecidableEq, Repr, Inhabited

/-- One plane of the accumulator file (R107–R117, R302). Accumulators are listed by 64 · row + column and hold the 192
visible bits and the 32-bit excess as one exact integer in units of 2^(anchor − 160). -/
structure PlaneSt where
  isOpen : Bool
  anchor : Int
  acc : Tbl Int
  ovf : Bool
  ovfTerms : Nat
  drops : Nat
  passes : Nat
  retries : Nat
  tref : W64
deriving DecidableEq, Repr, Inhabited

def PlaneSt.free : PlaneSt := ⟨false, 0, [], false, 0, 0, 0, 0, 0⟩

/-- An output image being assembled (R131, R134, R303): what half 0 left for the FIN round beside what it wrote into memory. -/
structure Assembly where
  save : Bool
  fmt : Fmt
  book : Bytes
  tref : Option W64
  counts : Counts
  fit : Dy
  nonzero : Nat
  outliers : Nat
  spilling : Bool
  clampEvt : Bool
  clipIdx : List Nat
  side : Tbl W32
  chans : List (Nat × W32 × W32)
deriving DecidableEq, Repr, Inhabited

/-- Owners of a local-memory bank (R312, R322). -/
inductive Owner where
  | core | stream | ply | remote
deriving DecidableEq, Repr, Inhabited

def Owner.code : Owner → Nat
  | .core => 0 | .stream => 1 | .ply => 2 | .remote => 3

def Owner.ofCode (n : Nat) : Owner :=
  if n % 4 == 0 then .core else if n % 4 == 1 then .stream else if n % 4 == 2 then .ply else .remote

/-- A bank: owner, SHARE and the PENDING bit of SPD_BANK_SHARE (R312, R315, R322). -/
structure Bank where
  owner : Owner
  share : Bool
  pending : Bool
deriving DecidableEq, Repr, Inhabited

def Bank.core : Bank := ⟨.core, false, false⟩

/-- The turn of a PULL.A whose source lies in an exchange bank, until it retires: where it reads and writes, its operands, the bytes that its
reads returned, and whether words of them came back torn and were read once more (R308, R321). -/
structure TurnJob where
  src : Nat
  at_ : Nat
  dest : Reg
  tref : W64
  fmt : Fmt
  exact : Bool
  bytes : Bytes
  torn : Bool
deriving DecidableEq, Repr, Inhabited

/-- An own transfer that has not retired (R306): the destination register and the status word it will write, whether it waits for the ply
unit's mask, and a turn out of an exchange bank. -/
structure OwnXfer where
  dest : Option Reg
  status : W64
  mask : Bool
  turn : Option TurnJob
deriving DecidableEq, Repr, Inhabited

/-- What a wait of a spindle is for (R178, R189, R206, R309, R338; `unit`: a full queue of the ply or sampling unit, or a bank
that foreign accesses still reach, R224, R259, R315; `take`: a BANK.TAKE, with the stations whose prologue copies it waits for). The PC still names the waiting instruction. -/
inductive Wait where
  | none
  | knot (k : Nat)
  | pull (q : Nat)
  | push (q : Nat)
  | quota
  | tracker (t : Nat)
  | spill
  | array
  | unit
  | take (stations : List Nat)
  | report
deriving DecidableEq, Repr, Inhabited

/-- The register files: s by number, v by 32 · register + lane, m by number; and the second bank of deferred mode
(R174, R276). -/
structure Regs where
  s : Tbl W64
  v : Tbl W32
  m : Tbl W32
  s2 : Tbl W64
  v2 : Tbl W32
  m2 : Tbl W32
deriving DecidableEq, Repr, Inhabited

def Regs.zero : Regs := ⟨[], [], [], [], [], []⟩

/-- A spindle (R276–R322). `verified` lists the images that the tile checker has marked, by local address and length (R102). -/
structure Spindle where
  run : RunState
  wait : Wait
  station : Nat
  sliver : Nat
  nsliver : Nat
  pc : Nat
  regs : Regs
  deferred : Bool
  retPc : Nat
  ringHead : Nat
  ringCount : Nat
  ringGens : List Nat
  fwd : ArraySt
  bwd : ArraySt
  passes : List Pass
  a0 : PlaneSt
  a1 : PlaneSt
  asm : Tbl Assembly
  verified : List (Nat × Nat)
  banks : Tbl Bank
  own : Option OwnXfer
  held : List (Nat × Nat)
  spillHeld : Nat
  xstat : BitVec 4
deriving DecidableEq, Repr, Inhabited

def Spindle.reset : Spindle :=
  { run := .idle, wait := .none, station := 0, sliver := 0, nsliver := 0, pc := 0, regs := Regs.zero, deferred := false,
    retPc := 0, ringHead := 0, ringCount := 0, ringGens := [], fwd := ⟨none, none⟩, bwd := ⟨none, none⟩, passes := [],
    a0 := PlaneSt.free, a1 := PlaneSt.free, asm := [], verified := [], banks := [], own := none, held := [],
    spillHeld := 0, xstat := 0 }

/-- The scaling settings fixed in a tracker's binding (R187). -/
structure Binding where
  station : Nat
  tensor : Nat
  col0 : Nat
  coln : Nat
  format : Nat
  current : Bool
  book : Bytes
  outEn : Bool
  outShift : Nat
  recompute : Bool
  table : Nat
  state0 : Nat
  exp0 : Nat
  anchor0 : Int
  stepTiles : Nat
  spillMax : Nat
  chBase : Nat
  chCount : Nat
  rsMode : Nat
  rsTarget : Int
deriving DecidableEq, Repr, Inhabited

/-- The sums of one step: the reports that joined it and what they carried (R190–R192, R211). -/
structure StepAcc where
  reports : Nat
  counts : Counts
  nonzero : Nat
  fit : W32
deriving DecidableEq, Repr, Inhabited

def StepAcc.zero : StepAcc := ⟨0, Counts.zero, 0, 0⟩

/-- A scale tracker (R186–R228): binding, policy-table slot, epoch state, the values kept for the previous epoch,
history (newest first), counters, and the accumulators of the current step and of the two after it (R191). -/
structure Tracker where
  bound : Bool
  bind : Binding
  slot : Nat
  epoch : W16
  dwell : Nat
  state : Nat
  exp : Nat
  anchor : Int
  prevExp : Nat
  prevAnchor : Int
  hist : List W32
  ctr : Counts
  last : Counts
  cur : StepAcc
  nxt : StepAcc
  nxt2 : StepAcc
  C : Nat
  V : Nat
  X : Nat
deriving DecidableEq, Repr, Inhabited

def Binding.none : Binding :=
  ⟨0, 0, 0, 0, 0, false, [], false, 3, false, 0, 0, 0, 0, 0, 0, 0, 0, 0, 0⟩

def Tracker.reset : Tracker :=
  { bound := false, bind := Binding.none, slot := 0, epoch := 0, dwell := 0, state := 0, exp := 0, anchor := 0,
    prevExp := 0, prevAnchor := 0, hist := [], ctr := Counts.zero, last := Counts.zero, cur := StepAcc.zero, nxt := StepAcc.zero,
    nxt2 := StepAcc.zero, C := 0, V := 0, X := 0 }

/-- A channel entry (R220, R221): published range, clipped count and FLAT, what accumulates for the current epoch and
for the two after it, and the rescale factors of the current, previous and next epoch. -/
structure ChanAcc where
  seen : Bool
  lo : W32
  hi : W32
  clipped : Nat
  elems : Nat
deriving DecidableEq, Repr, Inhabited

def ChanAcc.zero : ChanAcc := ⟨false, 0, 0, 0, 0⟩

structure Channel where
  lo : W32
  hi : W32
  clipped : Nat
  flat : Bool
  cur : ChanAcc
  nxt : ChanAcc
  nxt2 : ChanAcc
  factor : W32
  prevFactor : W32
  nextFactor : W32
deriving DecidableEq, Repr, Inhabited

def Channel.reset : Channel :=
  { lo := 0, hi := 0, clipped := 0, flat := false, cur := ChanAcc.zero, nxt := ChanAcc.zero,
    nxt2 := ChanAcc.zero, factor := 0x3F800000, prevFactor := 0x3F800000, nextFactor := 0x3F800000 }

/-- A report on its way to a tracker (R194): its TREF, the reporting spindle, what it carries, the channel statistics of
its tile, and whether it has stalled its producer (R191). -/
structure Report where
  tref : W64
  spindle : Nat
  counts : Counts
  nonzero : Nat
  fit : W32
  col : Nat
  chans : List (Nat × W32 × W32 × Nat)
  stalled : Bool
deriving DecidableEq, Repr, Inhabited

/-- A queued keep-mask request (R223, R224). -/
structure MaskReq where
  spindle : Nat
  key : SlotKey
  width : Nat
  tensor : Nat
  row : Nat
  col : Nat
  serial : Nat
  thresh : Nat
  dest : Nat
deriving DecidableEq, Repr, Inhabited

/-- A waiting spill reservation (R206): the encoding spindle and the entries it asks for; whether it was granted. -/
structure SpillReq where
  spindle : Nat
  station : Nat
  want : Nat
  granted : Bool
deriving DecidableEq, Repr, Inhabited

/-- Where a read of an exchange bank put its data: a register, by its kind of load, the local memory that the streaming engine fills, a
prologue copy on its way there, or a turn. -/
inductive XbDest where
  | none
  | reg (k : LdKind) (d : Reg)
  | image (at_ : Nat)
  | copy (at_ : Nat)
  | turn
deriving DecidableEq, Repr, Inhabited

/-- The latest access to a skein's exchange bank (R318–R321): the spindle for which it was made, by the core or by a streaming engine; port,
first 8-byte word and number of words; what it was, and where a read put its data. -/
structure XbAcc where
  spindle : Nat
  engine : Bool
  port : Nat
  first : Nat
  words : Nat
  write : Bool
  atomic : Bool
  dest : XbDest
deriving DecidableEq, Repr, Inhabited

/-- Power of a skein (R351, R352), in retention during a sag, and granted its resume (R587, R592). -/
inductive Power where
  | off | requested | waking | ready | retained | resuming
deriving DecidableEq, Repr, Inhabited

/-- A skein: its power, ply unit, spill pool and deferral bookkeeping (R184, R204–R228). -/
structure Skein where
  power : Power
  trackers : Tbl Tracker
  slots : Tbl Bytes
  channels : Tbl Channel
  reports : List Report
  masks : List MaskReq
  spillUsed : Tbl Nat
  spillWait : List SpillReq
  quotaUsed : Tbl Nat
  pending : Tbl Nat
  drain : Bool
  drainGen : Nat
  xbLast : Option XbAcc
  trkSel : Nat
  trkView : Tracker
  polSel : W32
  chanSel : Nat
deriving DecidableEq, Repr, Inhabited

def Skein.reset : Skein :=
  { power := .off, trackers := [], slots := [], channels := [], reports := [], masks := [],
    spillUsed := [], spillWait := [], quotaUsed := [], pending := [], drain := false, drainGen := 0,
    xbLast := none, trkSel := 0, trkView := Tracker.reset, polSel := 0, chanSel := 0 }

/-- A queued sampling request (R259, R260, R271): the issuing spindle with its station and sliver, the descriptor's local address and its
64 bytes, and what the row table and the logit tiles held when it was issued. -/
structure SampleReq where
  spindle : Nat
  station : Nat
  sliver : Nat
  at_ : Nat
  desc : Bytes
  rows : Bytes
  tiles : List Bytes
  changed : List Nat
deriving DecidableEq, Repr, Inhabited

/-- The sampling unit of a die (R259, R274): the requests that wait, and the one whose results wait on a snapshot page before its knot
may advance (R271, R381). -/
structure Sampler where
  queue : List SampleReq
  ending : Option SampleReq
  lastSpd : Nat
  lastErr : W16
deriving DecidableEq, Repr, Inhabited

def Sampler.reset : Sampler := ⟨[], none, 0, 0⟩

/-- The declared fields of a tile queue (R331). -/
structure QueueDecl where
  format : Nat
  spill : Bool
  key : Nat
  round : Bool
  keyShift : Nat
  producer : Nat
  consumer : Nat
  depth : Nat
  slotBytes : Nat
  ringBase : Nat
  spillBase : Nat
  spillDepth : Nat
deriving DecidableEq, Repr, Inhabited

/-- Where a queue entry's image lies (R334, R338). -/
inductive Slot where
  | ring (i : Nat)
  | spill (i : Nat)
deriving DecidableEq, Repr, Inhabited

/-- A queue entry: its slot, length, producer sliver, and the consumer slivers that have yet to pull it or to release
it (R332, R334). Entries are listed oldest first. -/
structure QEntry where
  id : Nat
  slot : Slot
  len : Nat
  producer : Nat
  toPull : List Nat
  toRelease : List Nat
deriving DecidableEq, Repr, Inhabited

/-- A tile queue (R331–R339): its declaration, state, entries, closed producer slivers, the producer in turn of each
consumer sliver under ROUND, and the spindles whose pushes wait, oldest first; its two counts with their LAST shadows (R637). -/
structure Queue where
  decl : QueueDecl
  state : Nat
  entries : List QEntry
  nextId : Nat
  closed : List Nat
  turn : Tbl Nat
  waiting : List Nat
  fullWaits : Nat
  pushed : Nat
  lastFull : Nat
  lastPushed : Nat
deriving DecidableEq, Repr, Inhabited

def QueueDecl.none : QueueDecl := ⟨0, false, 0, false, 0, 0, 0, 0, 0, 0, 0, 0⟩

def Queue.reset : Queue :=
  { decl := QueueDecl.none, state := 0, entries := [], nextId := 0, closed := [], turn := [], waiting := [],
    fullWaits := 0, pushed := 0, lastFull := 0, lastPushed := 0 }

/-- The counts of a queue that no job declares: they stay until the next reset (R637). -/
def Queue.counts (q : Queue) : Queue := { Queue.reset with fullWaits := q.fullWaits, pushed := q.pushed, lastFull := q.lastFull, lastPushed := q.lastPushed }

/-- A reset of a queue's counts: their values go to LAST (R637). -/
def Queue.resetCounts (q : Queue) : Queue := { q with fullWaits := 0, pushed := 0, lastFull := q.fullWaits, lastPushed := q.pushed }

/-- What a waiter on a knot does once it is woken (R309, R178, R327, R348). -/
inductive WaitUse where
  | result (d : Reg)
  | proceed
  | start (station sliver : Nat)
  | prologue (station skein : Nat)
deriving DecidableEq, Repr, Inhabited

/-- A waiter on a knot, and the value it was marked with (R341). -/
structure Waiter where
  spindle : Nat
  knot : Nat
  eq : Bool
  value : W64
  use : WaitUse
  mark : Option W64
deriving DecidableEq, Repr, Inhabited

/-- A knot (R340, R344): value, declared by the job, TRACE. -/
structure Knot where
  value : W64
  declared : Bool
  trace : Bool
deriving DecidableEq, Repr, Inhabited

def Knot.reset : Knot := ⟨0, false, false⟩

/-- Start conditions (R324, R327). -/
inductive StartCond where
  | atLoad
  | knot (k : Nat) (v : W64)
  | pred (station : Nat)
deriving DecidableEq, Repr, Inhabited

/-- A prologue entry: an image copy, or a queue warm (R347). -/
inductive PrologueEntry where
  | copy (src dst : Nat)
  | warm (q : Nat)
deriving DecidableEq, Repr, Inhabited

/-- A knot declared by an image (R324, R340). -/
structure KnotDecl where
  knot : Nat
  init : W64
  trace : Bool
deriving DecidableEq, Repr, Inhabited

/-- A queue declared by an image, in one role (R324, R331). -/
structure QueueUse where
  queue : Nat
  producer : Bool
  decl : QueueDecl
deriving DecidableEq, Repr, Inhabited

/-- A tracker binding record of an image: the module tracker number 256 k + j, its binding (R186, R187), and in HOST mode the rescale
factors of its channels (R221). -/
structure TrackerDecl where
  tracker : Nat
  bind : Binding
  factors : List W32
deriving DecidableEq, Repr, Inhabited

/-- A station image (R324). The transfer and spill quotas are listed by skein (R45, R205). `image` is the image's bytes, and `defImage` the same with the spindle list and the per-skein quotas
set to zero, over which its definition digest is taken (R563). -/
structure StationImage where
  number : Nat
  spindles : List Nat
  codeBase : Nat
  codeLen : Nat
  code : Bytes
  entry : Nat
  deferEntry : Option Nat
  deferDepth : Nat
  deferBank : Nat
  start : StartCond
  banks : List Bank
  quota : Tbl Nat
  spillQuota : Tbl Nat
  timeout : Nat
  knots : List KnotDecl
  queues : List QueueUse
  prologue : Tbl (List PrologueEntry)
  trigKnot : Nat
  trigValue : W64
  trackers : List TrackerDecl
  tensors : Tbl Nat
  tables : List Bytes
  image : Bytes
  defImage : Bytes
deriving DecidableEq, Repr, Inhabited

/-- The state of one sliver (R326). -/
inductive SliverState where
  | waiting | waking | prologue | running | ended | stopped
deriving DecidableEq, Repr, Inhabited

/-- An outstanding prologue copy (R347, R350): sliver, source and destination, whether it holds a slot of the quota (R45),
and the bytes read since. -/
structure PrologueXfer where
  sliver : Nat
  src : Nat
  dst : Nat
  held : Bool
  bytes : Bytes
deriving DecidableEq, Repr, Inhabited

/-- A loaded station: its image, the state of each sliver, whether a KNOT start condition has been met for a sliver,
the skeins on which the prologue has triggered and has been issued, and its outstanding copies. -/
structure Station where
  img : StationImage
  slivers : Tbl SliverState
  startMet : List Nat
  triggered : List Nat
  issued : List Nat
  copies : List PrologueXfer
deriving DecidableEq, Repr, Inhabited

/-- A request to the start sequencer (R352, R584): a skein wake, or the raise of an array clock domain. -/
inductive SeqReq where
  | wake (skein : Nat)
  | raise (domain : Nat)
deriving DecidableEq, Repr, Inhabited

/-- A transfer under way: the spindle, whether it is a prologue copy, the copy's destination, and the dies that its route passes (R26,
R27). -/
structure Transit where
  spindle : Nat
  prologue : Bool
  slot : Nat
  path : List Nat
deriving DecidableEq, Repr, Inhabited

def Transit.is (t : Transit) (n : Nat) (prologue : Bool) (slot : Nat) : Bool :=
  t.spindle == n && t.prologue == prologue && t.slot == slot

/-- The queue engine of a die (R337, R353): kept heads, most recently used first, and the QUE window. -/
structure QueueEngine where
  heads : List Nat
  sel : Nat
  view : Queue
  viewCached : Bool
deriving DecidableEq, Repr, Inhabited

def QueueEngine.reset : QueueEngine := ⟨[], 0, Queue.reset, false⟩

/-- The KNT window of a die (R354). -/
structure KnotBlock where
  sel : Nat
  view : Knot
  viewWaiters : Nat
deriving DecidableEq, Repr, Inhabited

def KnotBlock.reset : KnotBlock := ⟨0, Knot.reset, 0⟩

end Sys2Proof.Machine
end

