-- ==== Sys2Proof/Machine/GenState.lean ====
section
/-!
DEFINITION. The state of the generation engine, the mapping, collectives, reduction engines and Ethernet ports
(R392–R467), as plain data.
-/
namespace Sys2Proof.Machine

/-- An entry of the tensor table (R393, R415, R425, R427). Formats are codes; 0 = no backward copy. `keep` is the
retention policy. -/
structure TensorEntry where
  tensor : Nat
  layer : Nat
  ownerRule : Nat
  fwdFmt : Nat
  bwdFmt : Nat
  keep : Bool
  fwdOff : Nat
  bwdOff : Nat
  tiles : Nat
  reporter : Nat
deriving DecidableEq, Repr, Inhabited

/-- A bobbin pool (R420). -/
structure BobbinPool where
  station : Nat
  count : Nat
  size : Nat
  localCount : Nat
  stratumCount : Nat
  localBank : Nat
  stratumBase : Nat
  moduleBase : Nat
  stall : Bool
  releaser : Nat
  decisionKnot : Nat
  releaseKnots : List Nat
  slots : Nat
  slotKnot : Nat
deriving DecidableEq, Repr, Inhabited

/-- The update-ratio table's entry of a layer (R425, R427). -/
structure RatioEntry where
  layer : Nat
  threshold : W32
  ring : Nat
deriving DecidableEq, Repr, Inhabited

/-- The mapping: header (R426) and tables (R427). -/
structure Mapping where
  version : Nat
  solo : Bool
  rank : Nat
  D : Nat
  P : Nat
  Q : Nat
  X : Nat
  genKnot : Nat
  voteLead : Nat
  deferWarn : Nat
  commits : W64
  buildInc : W64
  areas : List Nat
  areaBytes : Nat
  admitRing : Nat
  layers : Nat
  experts : Nat
  tables : Nat
  reserved : Nat
  stages : List (Nat × Nat)
  tensors : List TensorEntry
  expertOf : List Nat
  pools : List BobbinPool
  ratios : List RatioEntry
  noticeQueue : Nat
deriving DecidableEq, Repr, Inhabited

/-- The tables of R427, to which MP_TABLES points, as a host gives them: the spec lays out no bytes of them (log entry 11). -/
structure MapTables where
  stages : List (Nat × Nat)
  tensors : List TensorEntry
  expertOf : List Nat
  pools : List BobbinPool
  ratios : List RatioEntry
  noticeQueue : Nat
deriving DecidableEq, Repr, Inhabited

/-- A mapping from its header's bytes (R426) and its tables; `reserved` adds up what stands in reserved bits and bytes. -/
def Mapping.parse (h : Bytes) (t : MapTables) : Mapping :=
  { version := leAt h 0 1, solo := bit (leAt h 1 1) 0, rank := leAt h 2 2, D := leAt h 4 2, P := leAt h 6 1, Q := leAt h 7 1,
    X := leAt h 8 2, genKnot := leAt h 0xA 2, voteLead := leAt h 0xC 2, deferWarn := leAt h 0xE 1,
    commits := BitVec.ofNat 64 (leAt h 0x10 8), buildInc := BitVec.ofNat 64 (leAt h 0x18 8),
    areas := (List.range 3).map fun j => leAt h (0x20 + 8 * j) 8, areaBytes := leAt h 0x38 8, admitRing := leAt h 0x40 8,
    layers := leAt h 0x48 4, experts := leAt h 0x4C 2, tables := leAt h 0x50 8,
    reserved := leAt h 1 1 / 2 + leAt h 0xF 1 + leAt h 0x4E 2 + leAt h 0x58 40,
    stages := t.stages, tensors := t.tensors, expertOf := t.expertOf, pools := t.pools, ratios := t.ratios,
    noticeQueue := t.noticeQueue }

/-- PHASE of TRD_GEN_STAT (R431). -/
inductive GenPhase where
  | idle | voted | applied | late
deriving DecidableEq, Repr, Inhabited

def GenPhase.code : GenPhase → Nat
  | .idle => 0 | .voted => 1 | .applied => 2 | .late => 3

/-- A vote that waits for its decision (R409–R411): the position of the commit, the generation index, the worker's vote. -/
structure OpenVote where
  pos : Nat
  gen : Nat
  ready : Bool
deriving DecidableEq, Repr, Inhabited

/-- A release occurrence held while no generation is CURRENT (R695), with the event-table entry that it comes from. -/
structure HeldRelease where
  entry : Nat
  knot : Nat
  count : Nat
deriving DecidableEq, Repr, Inhabited

/-- The generation engine (R395–R432): `deferRun` is the consecutive-deferral count itself, which the register shows saturated (R414, R431);
the open vote, the applied commit that has not completed, and the
admission numbering (R405, R695). Slot states, C and BUILD live in the generation knots. -/
structure GenEngine where
  vote : Option OpenVote
  applied : Option Nat
  phase : GenPhase
  lastVote : Bool
  drainUs : Nat
  deferRun : Nat
  relSeq : Nat
  relSum : Nat
  held : List HeldRelease
deriving DecidableEq, Repr, Inhabited

def GenEngine.reset : GenEngine :=
  { vote := none, applied := none, phase := .idle, lastVote := false, drainUs := 0, deferRun := 0,
    relSeq := 0, relSum := 0, held := [] }

/-- Kinds of collective (R449, R451). -/
inductive CollKind where
  | reduceScatter | allGather | allReduce | send | recv
deriving DecidableEq, Repr, Inhabited

def CollKind.ofCode (n : Nat) : Option CollKind :=
  if n == 1 then some .reduceScatter else if n == 2 then some .allGather else if n == 3 then some .allReduce
  else if n == 4 then some .send else if n == 5 then some .recv else none

/-- A participant of a group: logical rank, first tile and tile count of its chunk (R450). -/
structure Chunk where
  rank : Nat
  first : Nat
  count : Nat
deriving DecidableEq, Repr, Inhabited

/-- A collective record of a station image (R449) with its station, the group it names and the tensor's width and
tile count. -/
structure CollRec where
  kindCode : Nat
  fast : Bool
  modeCode : Nat
  reserved : Nat
  inFmt : Nat
  outFmt : Nat
  tensor : Nat
  group : List Chunk
  anchor : Int
  slot : Nat
  mult : Nat
  trigKnot : Nat
  trigInc : W64
  src : Nat
  srcStride : Nat
  dstStride : Nat
  dst : Nat
  doneKnot : Nat
  id : Nat
  timeout : Nat
  stat : Nat
  station : Nat
  width : Nat
  tiles : Nat
deriving DecidableEq, Repr, Inhabited

/-- A record of a station's collective table as its 64 bytes give it (R449), with the station, the group-table entry that CR_GROUP names,
the width of CR_TENSOR in the image's tensor table (0 where it is absent) and the number of the tensor's tiles. -/
def CollRec.parse (b : Bytes) (station : Nat) (group : List Chunk) (width tiles : Nat) : CollRec :=
  { kindCode := leAt b 0 1, fast := bit (leAt b 1 1) 0, modeCode := field (leAt b 1 1) 1 2, reserved := leAt b 1 1 / 8,
    inFmt := leAt b 2 1, outFmt := leAt b 3 1, tensor := leAt b 4 4, group := group, anchor := signedOf 16 (leAt b 0xA 2),
    slot := leAt b 0xC 1, mult := leAt b 0xD 1, trigKnot := leAt b 0xE 2, trigInc := BitVec.ofNat 64 (leAt b 0x10 8),
    src := leAt b 0x18 8, srcStride := leAt b 0x20 4, dstStride := leAt b 0x24 4, dst := leAt b 0x28 8,
    doneKnot := leAt b 0x30 2, id := leAt b 0x32 2, timeout := leAt b 0x34 4, stat := leAt b 0x38 8,
    station := station, width := width, tiles := tiles }

/-- An output tile being reduced (R457–R460): the halves' accumulators by 64 · row + column, the contributions
already added by rank and number. In FAST mode `fast` holds the running binary32 sums, and `clipped` and `vanished` count what their
roundings clipped and lost (R235, R463). -/
structure RedTile where
  tile : Nat
  h0 : PlaneSt
  h1 : PlaneSt
  got : List (Nat × Nat)
  fast : Tbl W32
  clipped : Nat
  vanished : Nat
deriving DecidableEq, Repr, Inhabited

/-- A tile image that arrives in segments (R501, R502): sender's rank, contribution, index, image length, the bytes placed and
the segments held by offset and length. -/
structure SegImg where
  rank : Nat
  contrib : Nat
  tile : Nat
  len : Nat
  bytes : Bytes
  got : List (Nat × Nat)
deriving DecidableEq, Repr, Inhabited

/-- A message of an instance that has not started here: the sender's rank, type and payload. -/
structure EarlyMsg where
  rank : Nat
  typ : Nat
  payload : Bytes
deriving DecidableEq, Repr, Inhabited

/-- The running or last instance of a record (R452): its number, whether it runs, its output tiles being reduced and finished,
the count of a SEND and RECV pair, what its status record sums up, the tiles sent, the images asked for once more (rank,
contribution, index), images arriving, the image lengths that segments have named (rank, contribution, index, length: R502), and messages of
later instances. -/
structure CollRun where
  inst : Nat
  active : Bool
  opened : List RedTile
  done : List Nat
  count : Option Nat
  retriesMax : Nat
  saturated : Bool
  drops : Nat
  clipped : Nat
  vanished : Nat
  sent : List Nat
  resent : List (Nat × Nat × Nat)
  segs : List SegImg
  lens : List (Nat × Nat × Nat × Nat)
  early : List EarlyMsg
deriving DecidableEq, Repr, Inhabited

def CollRun.reset : CollRun :=
  { inst := 0, active := false, opened := [], done := [], count := none, retriesMax := 0, saturated := false, drops := 0,
    clipped := 0, vanished := 0, sent := [], resent := [], segs := [], lens := [], early := [] }

/-- The reduction engine of a quoin (R457, R462, R467). -/
structure RedEngine where
  lastId : Nat
  lastErr : W16
deriving DecidableEq, Repr, Inhabited

def RedEngine.reset : RedEngine := ⟨0, 0⟩

/-- An instance whose job has stopped (R329). -/
def CollRun.halt (r : CollRun) : CollRun := { r with active := false, opened := [], segs := [], early := [] }

/-- An outstanding gather (R403, R415, R464): the owner's rank, the tensor and generation asked for, the tensor's width and the format of
its tiles, the tiles still due with the addresses they go to, the completion knot, the slot knot on which the request holds its pin, the
images arriving, and the tiles asked for once more. -/
structure Gather where
  id : Nat
  owner : Nat
  tensor : Nat
  gen : Nat
  width : Nat
  format : Nat
  due : List (Nat × Nat)
  knot : Nat
  pin : Option Nat
  station : Nat
  segs : List SegImg
  resent : List Nat
deriving DecidableEq, Repr, Inhabited

/-- A gather that this module has answered: the requester's rank, the request id, tensor and generation. -/
structure GatherServe where
  rank : Nat
  id : Nat
  tensor : Nat
  gen : Nat
deriving DecidableEq, Repr, Inhabited

/-- An Ethernet port (R433–R447, R466). `uncorrAt` holds the Q0 stamps of the uncorrectable codewords of the last
millisecond, `gwMac4` and `gwMac6` the gateways' MAC addresses once they are resolved (R439). Index 8 is the management port, which has no
page: `drops` is its RX_DROP_FORMAT (R436). -/
structure Port where
  mode : Nat
  anEn : Bool
  lanesOk : Nat
  speed : Nat
  inSpray : Bool
  fecLock : Bool
  anDone : Bool
  linkUp : Bool
  vlan : W32
  ipv4 : W32
  ipv6 : BitVec 128
  gw4 : W32
  gw6 : BitVec 128
  udpPort : W16
  answered : Nat
  uncorrAt : List Nat
  gwMac4 : Option Nat
  gwMac6 : Option Nat
  drops : Nat
deriving DecidableEq, Repr, Inhabited

/-- A port after reset (R466): mode 800 Gb/s, auto-negotiation on, UDP port 45,112, everything else zero. -/
def Port.reset : Port :=
  { mode := 1, anEn := true, lanesOk := 0, speed := 0, inSpray := false, fecLock := false, anDone := false,
    linkUp := false, vlan := 0, ipv4 := 0, ipv6 := 0, gw4 := 0, gw6 := 0, udpPort := 0xB038, answered := 0,
    uncorrAt := [], gwMac4 := none, gwMac6 := none, drops := 0 }

end Sys2Proof.Machine
end

