-- ==== Sys2Proof/Machine/MrnState.lean ====
section
/-!
DEFINITION. The state of Miornal conversations (R468–R513): session slots, the command cache, long operations and what
the module has sent, as plain data.
-/
namespace Sys2Proof.Machine

/-- Session states (R488), and the further states that a replacement table may have (R492). -/
inductive SessState where
  | CL | OG | OP | SU | RS | DR | CG
  | ext (n : Nat)
deriving DecidableEq, Repr, Inhabited

def SessState.code : SessState → Nat
  | .CL => 0 | .OG => 1 | .OP => 2 | .SU => 3 | .RS => 4 | .DR => 5 | .CG => 6 | .ext n => n

def SessState.ofCode (n : Nat) : SessState :=
  [.CL, .OG, .OP, .SU, .RS, .DR, .CG].getD n (.ext n)

/-- A cell of a session state table (R488): the next state and the actions. -/
structure Cell where
  next : SessState
  acts : List Nat
deriving DecidableEq, Repr, Inhabited

/-- The default session state table (R488), by event E0–E18 and state; `none` is "—". -/
def defaultRows : List (List (Option Cell)) :=
  let fail (l : List Nat) : Option Cell := some ⟨.CL, l⟩
  [[some ⟨.OG, [0]⟩],
   [some ⟨.OG, [1]⟩, some ⟨.OG, [1]⟩],
   [some ⟨.OP, [1, 2]⟩, none, some ⟨.OP, [1]⟩],
   [none, some ⟨.OP, [2]⟩],
   [none, some ⟨.OP, [2]⟩],
   [none, fail [11, 12]],
   [none, none, some ⟨.OP, [3]⟩, some ⟨.OP, [3]⟩, some ⟨.OP, [7, 3]⟩, some ⟨.DR, [3]⟩],
   [none, none, some ⟨.OP, [4]⟩, some ⟨.SU, [4]⟩, none, some ⟨.DR, [4]⟩],
   [none, none, some ⟨.SU, [5]⟩, some ⟨.SU, [5]⟩, none, some ⟨.DR, [5]⟩],
   [none, none, none, fail [11, 12], none, fail [11, 12]],
   [none, none, some ⟨.RS, [6]⟩, some ⟨.RS, [6]⟩, none, some ⟨.CG, [9, 11]⟩],
   [none, none, some ⟨.OP, [7, 8]⟩, some ⟨.OP, [7, 8]⟩, some ⟨.OP, [7, 8]⟩, some ⟨.DR, [7, 8]⟩],
   [none, none, none, none, some ⟨.OP, [7]⟩],
   [none, none, none, none, fail [11, 12], none, fail [12]],
   [none, fail [12], some ⟨.DR, []⟩, some ⟨.DR, []⟩, some ⟨.CG, [9, 11]⟩],
   [none, none, none, none, none, some ⟨.CG, [9]⟩],
   [none, fail [10, 11, 12], fail [10, 11, 12], fail [10, 11, 12], fail [10, 11, 12], fail [10, 11, 12], fail [10, 12]],
   [none, none, none, none, none, none, fail [12]],
   [none, fail [11, 12], fail [11, 12], fail [11, 12], fail [11, 12], fail [11, 12], fail [11, 12]]]

def defaultCell (e : Nat) (st : SessState) : Cell := ((defaultRows.getD e []).getD st.code none).getD ⟨st, []⟩

/-- A table image that firmware brings (R492): version, state count, event count, the 32-bit cells by event and state, the bytes of the
image, and whether its signature verifies against a vendor key (the spec does not say over which bytes: log entry 118). -/
structure SessTable where
  version : Nat
  states : Nat
  events : Nat
  cells : List (List W32)
  image : Bytes
  signed : Bool
deriving DecidableEq, Repr, Inhabited

/-- The order in which actions are performed: ascending, but A7 before A3, as the default table writes the cell of E6 in RS: A7 empties the
window in which A3 places the message (DEDUCED, log entry 118). -/
def actOrder : List Nat := [0, 1, 2, 7, 3, 4, 5, 6, 8, 9, 10, 11, 12]

/-- The next state of a cell, and its cell with the actions of bits 0–12 (R492). -/
def cellNext (w : W32) : Nat := field w.toNat 28 4
def cellOf (w : W32) : Cell := ⟨SessState.ofCode (cellNext w), actOrder.filter fun j => bit w.toNat j⟩

def SessTable.cell (t : SessTable) (e : Nat) (st : SessState) : Cell :=
  if e < t.events ∧ st.code < t.states then cellOf ((t.cells.getD e []).getD st.code 0) else ⟨st, []⟩

/-- The states from which a path of at most `n` cells leads to CLOSED. -/
def SessTable.closing (t : SessTable) : Nat → List Nat
  | 0 => [0]
  | n + 1 =>
    let l := t.closing n
    (List.range t.states).filter fun st => st == 0 || t.cells.any fun row => l.contains (cellNext (row.getD st 0))

/-- A table that may be loaded (R492): signed, in shape, no cell beyond the state count, a path from each state to CLOSED. -/
def SessTable.ok (t : SessTable) : Bool :=
  t.signed && decide (7 ≤ t.states) && decide (t.states ≤ 16) && decide (19 ≤ t.events) && decide (t.events ≤ 32)
    && t.cells.length == t.events && (t.cells.all fun row => row.length == t.states && row.all fun w => decide (cellNext w < t.states))
    && (List.range t.states).all fun st => (t.closing t.states).contains st

/-- A message of a session: type, command id and payload (R473, R493). -/
structure Msg where
  typ : Nat
  cmd : W64
  payload : Bytes
deriving DecidableEq, Repr, Inhabited

/-- An outgoing sequenced message that is not acknowledged (R477, R480, R481); `above` counts the packets of higher number that have been
acknowledged since it was last sent. -/
structure OutMsg where
  seq : Nat
  msg : Msg
  sacked : Bool
  retx : Bool
  above : Nat
deriving DecidableEq, Repr, Inhabited

/-- A command that has started on a session and whose RESULT has not been sent, with its status and data once it has completed: RESULTs
leave in the order in which the commands started (R498). -/
structure Due where
  cmd : W64
  res : Option (W16 × Bytes)
deriving DecidableEq, Repr, Inhabited

/-- A session slot (R468–R491). `plane` is 0 for A, 1 for B, 2 for the management port. `rxAck` is the MH_ACK of the
receive side, `held` the messages received out of order, `ready` those received in order and not delivered yet, `out` what is
unacknowledged, `queued` what waits for the window or for the session to open. `nonce` is the opener's, `hello` what the module repeats
(its HELLO, or the CHALLENGE that it answered with), `peerKey` the host's X448 value until the keys are formed. -/
structure Session where
  id : Nat
  kind : Nat
  plane : Nat
  state : SessState
  opener : Bool
  rank : Nat
  addr : BitVec 128
  peerId : Nat
  nonce : Bytes
  opId : W64
  hello : Bytes
  transcript : Bytes
  secret : Nat
  peerKey : Bytes
  keyRx : Bytes
  keyTx : Bytes
  epoch : Nat
  txNext : Nat
  out : List OutMsg
  queued : List Msg
  rxAck : Nat
  held : Tbl Msg
  ready : List Msg
  unackedRx : Nat
  ceCount : Nat
  window : Nat
  winAcked : Nat
  cutAcked : Nat
  lossAcked : Nat
  deadRunning : Bool
  tagFails : List Nat
  subs : Tbl W32
  due : List Due
deriving DecidableEq, Repr, Inhabited

/-- A session slot as allocated, before its HELLO is looked at. -/
def Session.fresh : Session :=
  { id := 0, kind := 0, plane := 0, state := .CL, opener := false, rank := 0, addr := 0, peerId := 0, nonce := [],
    opId := 0, hello := [], transcript := [], secret := 0, peerKey := [], keyRx := [], keyTx := [], epoch := 0, txNext := 1, out := [],
    queued := [], rxAck := 0, held := [], ready := [], unackedRx := 0, ceCount := 0, window := 0x100000, winAcked := 0,
    cutAcked := 0x1000000, lossAcked := 0x1000000,
    deadRunning := false, tagFails := [], subs := [], due := [] }

/-- What a frame that the module sends says before its Miornal packet (R438–R440, R445): the port, the MAC addresses (that of the gateway
once it is resolved), the 802.1Q tag's priority and VID, the IP addresses, the peer's port in the rotation, and the UDP ports. -/
structure FrameHead where
  port : Nat
  srcMac : Nat
  dstMac : Option Nat
  tag : Option (Nat × Nat)
  ipv6 : Bool
  srcIp : BitVec 128
  dstIp : BitVec 128
  peerPort : Nat
  srcPort : Nat
  dstPort : Nat
deriving DecidableEq, Repr, Inhabited

/-- What a port sends of itself, outside any session (R439, R441). -/
inductive PlainUse where
  | arpRequest
  | arpReply
  | neighbourSolicitation
  | neighbourAdvertisement
  | echoReply
deriving DecidableEq, Repr, Inhabited

/-- It is an IP packet, and so carries ECT(0) (R440). -/
def PlainUse.isIp (u : PlainUse) : Bool := !(u == .arpRequest || u == .arpReply)

/-- A frame that a port sends of itself: the port, MAC addresses, VID of its tag, IP addresses, and its length from destination address to
FCS. -/
structure PlainFrame where
  use_ : PlainUse
  port : Nat
  srcMac : Nat
  dstMac : Nat
  vid : Option Nat
  ipv6 : Bool
  srcIp : BitVec 128
  dstIp : BitVec 128
  length : Nat
deriving DecidableEq, Repr, Inhabited

/-- A packet that the module has sent: the model's record of its output (R473, R475), with the frame that carries it; no frame where no
port of the plane can take it, and the packet is lost. -/
structure Sent where
  plane : Nat
  frame : Option FrameHead
  addr : BitVec 128
  flags : Nat
  typ : Nat
  session : Nat
  epoch : Nat
  seq : Nat
  ack : Nat
  sack : BitVec 256
  cmd : W64
  ce : Nat
  payload : Bytes
  tag : Bytes
deriving DecidableEq, Repr, Inhabited

/-- An entry of the command cache (R496); entries are listed in the order in which they completed, RUNNING ones last. -/
structure CacheEntry where
  cmd : W64
  digest : Bytes
  running : Bool
  status : W16
  result : Bytes
deriving DecidableEq, Repr, Inhabited

/-- Objects of a long operation (R503). -/
inductive BulkObj where
  | snapshot | image | jobBundle | restore | dump | trace
deriving DecidableEq, Repr, Inhabited

def BulkObj.code : BulkObj → Nat
  | .snapshot => 1 | .image => 2 | .jobBundle => 3 | .restore => 4 | .dump => 5 | .trace => 6

/-- Where an operation stands (R503–R509). -/
inductive BulkState where
  | created | bound | held | done | failed
deriving DecidableEq, Repr, Inhabited

/-- A long operation (R503–R509). For a receiver `data` holds what it received, by offset, and `journal` the length of the
longest prefix, and `target` is a restore's address, or the id of the dump that is streamed (R656); for a sender `sent` is how far it has sent, `top` the furthest it has ever sent, `journal` the last journal offset it has
received, and `window` the snapshot-pool pages that hold a snapshot's window, oldest first (R506). -/
structure BulkOp where
  id : W64
  sends : Bool
  obj : BulkObj
  plane : Nat
  peer : BitVec 128
  peerPort : Nat
  length : Nat
  target : Nat
  state : BulkState
  session : Option Nat
  data : Tbl Byte
  got : List (Nat × Nat)
  journal : Nat
  journalSent : Nat
  sent : Nat
  ended : Option (Nat × W32)
  err : W16
  rank : Nat
  pos : Nat
  headChecked : Bool
  stream : Bytes
  top : Nat
  window : List Nat
deriving DecidableEq, Repr, Inhabited

/-- A command that waits: for a place in the command cache (R496), or for the end of a job load (R610). -/
structure WaitingCmd where
  session : Nat
  cmd : W64
  typ : Nat
  payload : Bytes
deriving DecidableEq, Repr, Inhabited

/-- The sessions' engines together (R469–R513). `authFails` holds the addresses and Q0 stamps of refused proofs, `lockouts` those of the
lockouts that they began (R487), `strays` how many packets without a session each port has answered in the present second (R476),
`rot` the port that a plane sent its last packet on (R445), `table` the replacement of the default session table (R492), and `failures` the
reports of SESSION_FAILED to the users of sessions: session id, kind and the event that is its cause (R489). `out` and `plain` record what the
module has sent: its packets, and the frames that its ports send of themselves. -/
structure Miornal where
  sessions : Tbl Session
  nextId : Nat
  bootCount : Nat
  out : List Sent
  plain : List PlainFrame
  cache : List CacheEntry
  admission : List WaitingCmd
  origins : Tbl Nat
  ops : List BulkOp
  nextOp : Nat
  timers : List W32
  bulkReg : W32
  sessSel : List Nat
  sessView : List Session
  table : Option SessTable
  failures : List (Nat × Nat × Nat)
  authFails : List (BitVec 128 × Nat)
  lockouts : List (BitVec 128 × Nat)
  strays : Tbl Nat
  rot : Tbl Nat
deriving DecidableEq, Repr, Inhabited

/-- TABLE_ALT (R513). -/
def Miornal.tableAlt (m : Miornal) : Bool := m.table.isSome

/-- Reset values of R513: the four timer registers, HOLD and WINDOW. -/
def Miornal.reset : Miornal :=
  { sessions := [], nextId := 0, bootCount := 0, out := [], plain := [], cache := [], admission := [], origins := [], ops := [], nextOp := 0,
    timers := [0x7530C350, 0x00020014, 0x03E803E8, 0x00050032], bulkReg := 0x001E0040, sessSel := [0, 0],
    sessView := [Session.fresh, Session.fresh], table := none, failures := [], authFails := [], lockouts := [], strays := [], rot := [] }

end Sys2Proof.Machine
end

