-- ==== Sys2Proof/Machine/ModuleState.lean ====
section
/-!
DEFINITION. The state of register pages, trace rings, the treadle ring, the manager, snapshots, power, the sag save,
trust, wear and maintenance (R361–R391, R514–R690), as plain data.
-/
namespace Sys2Proof.Machine

/-- The common header of a register page (R624), its error latch (R630), its events (R631) and its counters with their
snapshots and LAST shadows (R633–R637). `off` is the complement of ENABLE. A counter's key is its CNT_SEL number, or the
offset of its own register. -/
structure PageHdr where
  off : Bool
  locked : Bool
  errValid : Bool
  errCode : W16
  errMore : Nat
  errInfo : W32
  pend : W32
  mask : W32
  cntSel : Byte
  view : Bool
  snapSeq : Nat
  ctr : Tbl Nat
  snap : Tbl Nat
  last : Tbl Nat
deriving DecidableEq, Repr, Inhabited

def PageHdr.reset : PageHdr :=
  { off := false, locked := false, errValid := false, errCode := 0, errMore := 0, errInfo := 0, pend := 0, mask := 0,
    cntSel := 0, view := false, snapSeq := 0, ctr := [], snap := [], last := [] }

/-- A trace record (R642); `ext` is the second slot of an extended record (R643). -/
structure TraceRec where
  stamp : Nat
  block : Nat
  flags : Nat
  inst : Nat
  code : Nat
  arg : Nat
  ext : Option Bytes
deriving DecidableEq, Repr, Inhabited

/-- States of a trace ring (R648). -/
inductive RingState where
  | armed | post | frozen
deriving DecidableEq, Repr, Inhabited

def RingState.code : RingState → Nat
  | .armed => 0 | .post => 1 | .frozen => 2

/-- A trace ring (R645–R650): records oldest first, records overwritten, records that met a frozen ring, whether it has
frozen since the captured trigger, and the POST slots written. Its state follows from `frozen` and the unit's phase. -/
structure Ring where
  recs : List TraceRec
  overwritten : Nat
  frozenDrop : Nat
  lastOver : Nat
  lastDrop : Nat
  frozen : Bool
  post : Nat
deriving DecidableEq, Repr, Inhabited

def Ring.reset : Ring := ⟨[], 0, 0, 0, 0, false, 0⟩

/-- The trace unit (R647–R656, R668). `phase` is ARMED, POST since a captured trigger, or FROZEN once every ring is. `xtFull` tells that the
extended store has stopped full, `xtDue` that XT_FULL is yet to be raised; `xtNext` is the slot of the store that its next copy takes and `xtStamp` the Q0 stamp at which
the store froze; `held` is the held dump's id and length, and the three freeze fields the Q0 stamp and the positions at the freeze. -/
structure TraceUnit where
  phase : RingState
  mrnBulk : Bool
  xtStop : Bool
  xtEn : Bool
  lastSrc : Nat
  trigMask : Nat
  postMaxUs : Nat
  postPct : Nat
  stallMs : Nat
  wdMs : Nat
  trigStamp : Nat
  lostSrc : Nat
  lostStamp : Nat
  xtBase : Nat
  xtBlk : Nat
  dumpBase : Nat
  baseSel : Nat
  xt : Ring
  xtFull : Bool
  xtDue : Bool
  xtNext : Nat
  xtStamp : Nat
  freezeStamp : Nat
  freezeT : Nat
  freezeJ : Nat
  held : Option (Nat × Nat)
  dumpSeq : Nat
deriving DecidableEq, Repr, Inhabited

def TraceUnit.reset : TraceUnit :=
  { phase := .armed, mrnBulk := false, xtStop := false, xtEn := false, lastSrc := 0, trigMask := 0x1FF, postMaxUs := 0x64, postPct := 0x19,
    stallMs := 0x3E8, wdMs := 0x1388, trigStamp := 0, lostSrc := 0, lostStamp := 0, xtBase := 0, xtBlk := 0,
    dumpBase := 0, baseSel := 0, xt := Ring.reset, xtFull := false, xtDue := false, xtNext := 0, xtStamp := 0, freezeStamp := 0, freezeT := 0, freezeJ := 0, held := none, dumpSeq := 0 }

/-- States of the ring interface (R524). -/
inductive LinkState where
  | down | lock | framed | synced | lost
deriving DecidableEq, Repr, Inhabited

def LinkState.code : LinkState → Nat
  | .down => 0 | .lock => 1 | .framed => 2 | .synced => 3 | .lost => 4

/-- A treadle frame as it arrives (R518–R522): the port it uses, position, flags, opcode, argument and CRC field. -/
structure TFrame where
  trunk : Bool
  pos : W64
  flags : W16
  op : Nat
  arg : Nat
  crc : W16
deriving DecidableEq, Repr, Inhabited

/-- A command that a head sends in consecutive frames (R523): opcode, argument, frames still to send. -/
structure RingCmd where
  op : Nat
  arg : Nat
  left : Nat
deriving DecidableEq, Repr, Inhabited

/-- What a head is doing for one commit (R539, R540): the vote frame it awaits, the ring's result, and the decision with
the position up to which it is repeated. -/
structure HeadVote where
  pos : Nat
  voteSent : Option Nat
  ringReady : Option Bool
  tallySent : Option Nat
  trunkReady : Option Bool
  decision : Option Bool
  firstSent : Bool
deriving DecidableEq, Repr, Inhabited

/-- An entry of the event table (R534). -/
structure EvEntry where
  pos : Nat
  period : Nat
  action : Nat
  valid : Bool
  late : Bool
  mgr : Bool
  arg0 : W64
  arg1 : W64
deriving DecidableEq, Repr, Inhabited

def EvEntry.reset : EvEntry := ⟨0, 0, 0, false, false, false, 0, 0⟩

/-- A membership entry (R543). -/
structure Member where
  rank : Nat
  ring : Nat
  pos : Nat
  spare : Bool
  state : Nat
  id : Bytes
  addrA : BitVec 128
  addrB : BitVec 128
deriving DecidableEq, Repr, Inhabited

/-- A received ROSTER part (R545, R546). `hdr` is the header with the fields that differ between parts set to zero. -/
structure RosterPart where
  hdr : Bytes
  version : Nat
  part : Nat
  parts : Nat
  schedFirst : Nat
  sched : List EvEntry
  memFirst : Nat
  mem : List Member
deriving DecidableEq, Repr, Inhabited

/-- A resume that waits for its position (R547, R550): treadle position, job position there, checkpoint id. -/
structure Resume where
  at_ : Nat
  jobPos : Nat
  ckpt : Nat
deriving DecidableEq, Repr, Inhabited

/-- The treadle interface of a module (R514–R547, R555). `compensated` tells that a ROSTER has given the compensation,
`lastByp` gives the last switch command seen for each position (1 BYPASS, 2 UNBYPASS), `ringIn` whether the module is in a ring at all
(R530), and `trained` that the head's frames no longer carry TRAIN (R520). -/
structure Treadle where
  link : LinkState
  ringIn : Bool
  trained : Bool
  goodRun : Nat
  missedRun : Nat
  badAt : List Nat
  compensated : Bool
  closed : Bool
  closing : Option Bool
  byCommand : Bool
  holdLost : Bool
  byCtl : Bool
  soloPeriod : Nat
  ring : Nat
  pos : Nat
  rank : Nat
  arrival : Nat
  target : Nat
  dR : Nat
  dT : Nat
  sample : W32
  mgrAddr : BitVec 128
  tpos : Nat
  posHi : W32
  jobBase : Nat
  firstEdge : Option Nat
  resume : Option Resume
  heldDecision : Option (Nat × Bool)
  heldLate : Bool
  voteLead : Nat
  trunkClosed : Bool
  headVote : Option HeadVote
  cmds : List RingCmd
  frame : Option TFrame
  passed : Option TFrame
  lastByp : Tbl Nat
  members : List Member
  version : Nat
  parts : List RosterPart
deriving DecidableEq, Repr, Inhabited

/-- R555: link DOWN, both switches closed, SOLO_PERIOD 0x3E8. That the module stands in a ring is the model's choice (DESIGN CHOICE, log entry 141). -/
def Treadle.reset : Treadle :=
  { link := .down, ringIn := true, trained := false, goodRun := 0, missedRun := 0, badAt := [], compensated := false, closed := true, closing := none,
    byCommand := false, holdLost := false, byCtl := false, soloPeriod := 0x3E8, ring := 0, pos := 0, rank := 0xFFFF,
    arrival := 0, target := 0, dR := 0, dT := 0, sample := 0, mgrAddr := 0, tpos := 0, posHi := 0, jobBase := 0,
    firstEdge := none, resume := none, heldDecision := none, heldLate := false, voteLead := 0, trunkClosed := true, headVote := none, cmds := [], frame := none,
    passed := none, lastByp := [], members := [], version := 0, parts := [] }

/-- The event table with its window (R534, R556), the SNAP_OPENs carried to the next COMMIT occurrence, and those that wait for the decision
of the commit at their position, with the entry that each came from (R567). -/
structure EventTable where
  entries : Tbl EvEntry
  sel : Nat
  window : Tbl W32
  carried : List (W64 × W64)
  undecided : List (Option Nat × W64 × W64)
deriving DecidableEq, Repr, Inhabited

def EventTable.reset : EventTable := ⟨[], 0, [], [], []⟩

/-- A manager plan (R544). -/
structure Plan where
  version : Nat
  top : Bool
  trunk : Bool
  flagsRsv : Nat
  ring : Nat
  rings : Nat
  beatNs : Nat
  voteLead : Nat
  members : List Member
  links : List Nat
  trunkLinks : List Nat
  schedule : List EvEntry
  reserved : Nat
deriving DecidableEq, Repr, Inhabited

/-- States of the manager unit (R557). -/
inductive MgrState where
  | idle | training | running | restoring | held
deriving DecidableEq, Repr, Inhabited

def MgrState.code : MgrState → Nat
  | .idle => 0 | .training => 1 | .running => 2 | .restoring => 3 | .held => 4

/-- The manager unit (R514–R557): its plan, the membership table, checkpoint bookkeeping, restore bookkeeping, the
collateral wait, what the last ROSTER to each module carried (by 128 × ring + position: SCHED_REPLACE, RESUME), the last TAKEOVER received by a spare, and that the plan's vote lead holds it in TRAINING (R541). -/
structure Manager where
  state : MgrState
  plan : Option Plan
  members : List Member
  version : Nat
  ckpt : W64
  ckptPos : Nat
  snapDone : Tbl (List Nat)
  snapAbandoned : List Nat
  restored : List Nat
  collateral : Bool
  rejected : Tbl Nat
  sent : Tbl (Nat × Bool × Option Resume)
  selRing : Nat
  selPos : Nat
  takeover : Option (Nat × Nat × W64)
  leadHeld : Bool
deriving DecidableEq, Repr, Inhabited

def Manager.reset : Manager :=
  { state := .idle, plan := none, members := [], version := 0, ckpt := 0, ckptPos := 0, snapDone := [], snapAbandoned := [],
    restored := [], collateral := false, rejected := [], sent := [], selRing := 0, selPos := 0, takeover := none, leadHeld := false }

/-- States of a snapshot page (R380, R381). `guarded` is PROTECTED; `copying` is a PROTECTED page whose copy is in progress. -/
inductive PageState where
  | guarded
  | copying (slot : Nat)
  | copied (slot : Nat)
  | streaming
deriving DecidableEq, Repr, Inhabited

/-- A write that waits on one or more pages (R382, R384), with its bytes and whether it waits for a pool page. -/
structure WaitWrite where
  pages : List Nat
  addr : Nat
  data : Bytes
  spindle : Option Nat
  forPool : Bool
deriving DecidableEq, Repr, Inhabited

/-- An entry of the checkpoint table (R561). -/
structure CkptEntry where
  kind : Nat
  name : Nat
  first : Nat
  bytes : Nat
  addr : Nat
deriving DecidableEq, Repr, Inhabited

/-- SNP_STAT.STATE (R391). -/
inductive SnapState where
  | idle | opened | done | abandoned
deriving DecidableEq, Repr, Inhabited

def SnapState.code : SnapState → Nat
  | .idle => 0 | .opened => 1 | .done => 2 | .abandoned => 3

/-- The snapshot engine (R378–R391, R558–R575). `todo` lists the pages of the open snapshot that are yet to be streamed,
in stream order; `head` is the assembled checkpoint head. -/
structure Snapshot where
  setBase : Nat
  poolBase : Nat
  poolPages : Nat
  timeout : Nat
  state : SnapState
  err : W16
  id : W64
  op : W64
  pages : Tbl PageState
  used : List Nat
  waits : List WaitWrite
  todo : List Nat
  reading : Option Nat
  head : Bytes
  rErr : W16
  rState : Nat
  ckpt : W64
  restCkpt : W64
deriving DecidableEq, Repr, Inhabited

def Snapshot.reset : Snapshot :=
  { setBase := 0, poolBase := 0, poolPages := 0, timeout := 0x186A0, state := .idle, err := 0, id := 0, op := 0,
    pages := [], used := [], waits := [], todo := [], reading := none, head := [], rErr := 0, rState := 0, ckpt := 0,
    restCkpt := 0 }

/-- The stratum controller of a die (R369–R377, R389). -/
structure Stratum where
  ready : Bool
  clearing : Bool
  period : Nat
  scrubPos : Nat
  scrubOn : Bool
  failAddr : Option Nat
deriving DecidableEq, Repr, Inhabited

def Stratum.reset : Stratum := ⟨false, false, 0x18, 0, false, none⟩

/-- The module-memory controller of a quoin (R361–R363, R372, R390): channels, clear, scrub period, position and pass, temperature readout
and the run of failed retrainings of each channel. -/
structure Lpd where
  chanUp : W32
  clearing : Bool
  period : Nat
  scrubPos : Nat
  scrubOn : Bool
  temp : W32
  failRun : Tbl Nat
deriving DecidableEq, Repr, Inhabited

def Lpd.reset : Lpd := ⟨0, false, 0x18, 0, false, 0, []⟩

/-- Supply, modes, governor, start sequencer and sideband (R576–R584, R599, R671–R690). `failed` tells that a power-on step failed, which
holds PG low, and `failStep` and `failPkgs` what the management port reports of it: the step, and the packages with a channel that failed its
training (R363, R578). `domains` gives the mode whose
clock each array domain runs where it differs from the mode in force: domain 2 k is the forward and 2 k + 1 the
backward array domain of skein k. `vinLow` counts the governor's readings until the last second holds no input voltage below
40.0 V (R579). -/
structure PowerSt where
  pwrEn : Bool
  pg : Bool
  failed : Bool
  failStep : Option Nat
  failPkgs : List Nat
  switchOpen : Bool
  openByVin : Bool
  vinLow : Nat
  mode : Nat
  active : Nat
  changing : Bool
  pendingMode : Option Nat
  domains : Tbl Nat
  lease : Nat
  vin : Nat
  iin : Nat
  pin : Nat
  reason : Nat
  step : Nat
  sinceStep : Nat
  below : Nat
  queue : List SeqReq
  granted : List SeqReq
  slotId : Nat
  tamperLvl : Bool
  outlet : Int
  inlet : Int
  coolantStop : Bool
deriving DecidableEq, Repr, Inhabited

/-- R599, R690: mode OVERLAP; TAMPER_N reads 1; everything else zero. -/
def PowerSt.reset : PowerSt :=
  { pwrEn := false, pg := false, failed := false, failStep := none, failPkgs := [], switchOpen := false, openByVin := false, vinLow := 0, mode := 2, active := 2,
    changing := false, pendingMode := none, domains := [], lease := 0, vin := 0, iin := 0, pin := 0,
    reason := 0, step := 0, sinceStep := 0, below := 0, queue := [], granted := [], slotId := 0x3F, tamperLvl := true, outlet := 0,
    inlet := 0, coolantStop := false }

/-- SAG_STAT.STATE (R600). -/
inductive SagState where
  | armed | pausing | saving | hold | resuming | erasing | disarmed
deriving DecidableEq, Repr, Inhabited

def SagState.code : SagState → Nat
  | .armed => 0 | .pausing => 1 | .saving => 2 | .hold => 3 | .resuming => 4 | .erasing => 5 | .disarmed => 6

/-- A daily wear sample (R661): indicator and value. -/
structure WearSample where
  ind : Nat
  value : Int
deriving DecidableEq, Repr, Inhabited

/-- The values of sections 1 and 6 of the sag-save image, whose layout the spec does not give: generation knots, C, serials,
TRD_JOB_BASE and seed mask; the page counters and their LAST shadows (R591). -/
structure SagValues where
  knots : List W64
  commits : Nat
  serials : List Nat
  jobBase : Nat
  seedMask : Nat
  pages : Tbl PageHdr
deriving DecidableEq, Repr, Inhabited

/-- The sag-save image (R590, R591): header fields, markers and the sections that are used after a reset. `bytes` is the
image as written. -/
structure SagImage where
  values : SagValues
  boot : Nat
  job : Nat
  tpos : Nat
  jpos : Nat
  len : Nat
  valid : Bool
  superseded : Bool
  sessions : Tbl Session
  ops : List BulkOp
  origins : Tbl Nat
  cache : List CacheEntry
  wear : List WearSample
  bytes : Bytes
deriving DecidableEq, Repr, Inhabited

/-- The sag-save engine (R585–R600). `staged` is the gathered image, `image` the sag-save area, `kept` that it stays for a DUMP (R594),
`recovered` that the bus has recovered before the save was complete, `skipImage` that this sag writes no image (R595), `timedOut` that
HOLD_MAX has run out, `stopped` that every unit has stopped; `atT` and `atJ` are the positions at detection. -/
structure Sag where
  state : SagState
  holdMax : Nat
  lastUs : Nat
  lastKib : Nat
  cap : Nat
  esr : Nat
  euMj : Nat
  staged : Option SagImage
  image : Option SagImage
  kept : Bool
  recovered : Bool
  skipImage : Bool
  timedOut : Bool
  stopped : Bool
  atT : Nat
  atJ : Nat
deriving DecidableEq, Repr, Inhabited

/-- R600: DISARMED, HOLD_MAX 100 ms. -/
def Sag.reset : Sag :=
  { state := .disarmed, holdMax := 0x64, lastUs := 0, lastKib := 0, cap := 0, esr := 0, euMj := 0, staged := none,
    image := none, kept := false, recovered := false, skipImage := false, timedOut := false, stopped := false,
    atT := 0, atJ := 0 }

/-- The fuses (R608–R616): settings, counters, key digests and keys. -/
structure Fuses where
  variant : Nat
  roleBase : Bool
  roleN : Nat
  svnMin : Nat
  revoked : Nat
  ownerN : Nat
  addrN : Nat
  lcN : Nat
  lc : Nat
  addrBlock : Nat
  vendorDigests : List Bytes
  ownerKeys : Tbl Bytes
  ownersOff : Bool
  idKey : Bool
deriving DecidableEq, Repr, Inhabited

/-- An entry of the change ledger (R615). -/
structure LedgerEntry where
  seq : Nat
  code : Nat
  reconstructed : Bool
  count : Nat
  boot : Nat
  old : Nat
  new : Nat
  origin : W64
deriving DecidableEq, Repr, Inhabited

/-- The security engine (R601–R621). `mirrorA` and `mirrorB` are the fuse-mirror copies (none: the copy's check fails), `ledger` and `ledger2` the copies of the change
ledger, of which a bit of `ledgerBad` says that its check fails (R388), `fw` the
firmware slot, `running` the image that runs, `tamperHeld` the tamper sources that wait for the end of a sag save (R619), and `slotWrite` the image with
which the erased slot is being programmed, with its operation (R604, R605). -/
structure Trust where
  fuses : Fuses
  mirrorA : Option Fuses
  mirrorB : Option Fuses
  fw : Bytes
  running : Option Bytes
  bootReason : Nat
  recovery : Bool
  tamper : Nat
  tamperActive : Nat
  tamperHeld : Nat
  mgrRole : Bool
  addrBase : Nat
  ledger : List LedgerEntry
  ledger2 : List LedgerEntry
  ledgerBad : Nat
  stage : Tbl W32
  fuseErr : W16
  lsel : Nat
  ldata : Bytes
  imageTimer : Bool
  slotWrite : Option (W64 × Bytes)
deriving DecidableEq, Repr, Inhabited

/-- The wear unit (R660, R661, R669): per indicator the latest value, the hours since it was measured, and the daily
history; the ALERT bits and the EOL crossings already announced. -/
structure Wear where
  sel : Nat
  latest : Tbl Int
  ageH : Tbl Nat
  history : List WearSample
  alert : Nat
  crossed : Nat
  alertDays : Nat
  eol : Tbl Nat
  eol90 : Tbl Nat
deriving DecidableEq, Repr, Inhabited

def Wear.reset : Wear :=
  { sel := 0, latest := [], ageH := [], history := [], alert := 0, crossed := 0, alertDays := 0x5A, eol := [],
    eol90 := [] }

/-- A maintenance request or a running activity (R662–R666): number, port of a MARGIN_SCAN, whether the host made it. -/
structure MntReq where
  act : Nat
  port : Nat
  host : Bool
deriving DecidableEq, Repr, Inhabited

/-- The maintenance arbiter (R662–R670). `window` is the activity mask of the open window. -/
structure Maint where
  port : Nat
  running : List MntReq
  waiting : List MntReq
  window : Option Nat
  windowEnd : Nat
  deferMax : Nat
  capH : Nat
  agingH : Nat
  marginH : Nat
  lastErr : W16
  lastAct : Nat
  nextPort : Nat
  capAgain : Bool
deriving DecidableEq, Repr, Inhabited

def Maint.reset : Maint :=
  { port := 0, running := [], waiting := [], window := none, windowEnd := 0, deferMax := 0x2710, capH := 0x18,
    agingH := 0x18, marginH := 0xA8, lastErr := 0, lastAct := 0, nextPort := 0, capAgain := false }

/-- MOD_JOB.JOB_STATE (R640). -/
inductive JobState where
  | none | loading | loaded | restoreWait | stopped | unloading
deriving DecidableEq, Repr, Inhabited

def JobState.code : JobState → Nat
  | .none => 0 | .loading => 1 | .loaded => 2 | .restoreWait => 3 | .stopped => 4 | .unloading => 5

/-- The stop record (R329, R640). -/
structure StopRec where
  code : W16
  station : Nat
  spindle : Nat
  sliver : Nat
  pc : Nat
  tensor : Nat
  row : Nat
  col : Nat
  index : Nat
  crc : Option CrcStop
deriving DecidableEq, Repr, Inhabited

def StopRec.none : StopRec := ⟨0, 0, 0, 0, 0, 0, 0, 0, 0, Option.none⟩

/-- A mortar link (R25, R29): up, its run of failed retrainings, and its count of replays, which no register shows. -/
structure Mortar where
  down : Bool
  failRun : Nat
  replays : Nat
deriving DecidableEq, Repr, Inhabited

def Mortar.reset : Mortar := ⟨false, 0, 0⟩

/-- Power of a compute die (R32, R376, R377). `byJob` tells that the job woke it. -/
structure Die where
  awake : Bool
  byJob : Bool
deriving DecidableEq, Repr, Inhabited

end Sys2Proof.Machine
end

