-- ==== Sys2Proof/Machine/Message.lean ====
section
/-!
DEFINITION. What reaches the module from outside as an operand of a command: a Miornal packet, an Ethernet frame, a job
bundle, and the measurements of its sensors.
-/
namespace Sys2Proof.Machine

/-- A received Miornal packet (R473, R475) with the port it arrived on (0–7 data ports, 8 management port), its source
address and UDP source port, and whether it was CE-marked (R443). MH_TYPE is the command's own. `len` is MH_LEN,
`reserved` the header's reserved bits. -/
structure Packet where
  port : Nat
  src : BitVec 128
  srcPort : Nat
  ce : Bool
  version : Nat
  flags : BitVec 8
  session : Nat
  epoch : Nat
  seq : Nat
  ack : Nat
  sack : BitVec 256
  cmd : W64
  len : Nat
  ceCount : Nat
  reserved : Nat
  payload : Bytes
  tag : Bytes
deriving DecidableEq, Repr, Inhabited

/-- What a received frame is (R437, R439, R441): `otherIcmp` and `otherIp` are IP packets of other protocols than UDP, `other` no IP packet
at all. -/
inductive FrameUse where
  | udp
  | arpRequest
  | neighbourSolicitation
  | arpReply
  | neighbourAdvertisement
  | echoRequest
  | otherIcmp
  | otherIp
  | pause
  | other
deriving DecidableEq, Repr, Inhabited

/-- A received Ethernet frame (R436–R441), field by field. `kind` is the session kind of the Miornal packet it carries, `corrected` and
`uncorrected` the FEC codewords since the previous frame, and `foreign` its Miornal packet with MH_TYPE where that is a type that no row
brings in. -/
structure Frame where
  port : Nat
  length : Nat
  fcsOk : Bool
  vids : List Nat
  dst : Nat
  srcMac : Nat
  srcIp : BitVec 128
  use_ : FrameUse
  ipv6 : Bool
  ipOptions : Bool
  fragmented : Bool
  dstIp : BitVec 128
  ce : Bool
  csumOk : Bool
  csumZero : Bool
  dstPort : Nat
  kind : Nat
  uncorrected : Nat
  corrected : Nat
  foreign : Option (Packet × Nat)
deriving DecidableEq, Repr, Inhabited

/-- A streaming transfer as a spindle's program issues it: the spindle, and whether its access to an exchange bank comes in the same cycle
as the bank's last one (R319). -/
structure StreamIssue where
  n : Nat
  same : Bool
deriving DecidableEq, Repr, Inhabited

/-- The checkpoint table of a mapping (R561). -/
structure CkptTable where
  count : Nat
  flags : Nat
  resumeAddr : Nat
  resumeLen : Nat
  entries : List CkptEntry
deriving DecidableEq, Repr, Inhabited

/-- A record of the collective table of a station's image: its 64 bytes (R449), and the number of tiles of its tensor. -/
structure CollEntry where
  station : Nat
  record : Bytes
  tiles : Nat
deriving DecidableEq, Repr, Inhabited

/-- A gather as a station of this module asks for it (R415): the owner's rank, the tensor, the generation number, the tiles with the
addresses they go to, the completion knot and the station. -/
structure GatherIssue where
  owner : Nat
  tensor : Nat
  gen : Nat
  tiles : List (Nat × Nat)
  knot : Nat
  station : Nat
deriving DecidableEq, Repr, Inhabited

/-- GATHER_REQ at the module that owns the tiles, as a packet that arrives, or at the module that asks for them (R415). -/
inductive GatherMsg where
  | received (p : Packet)
  | issued (g : GatherIssue)
deriving DecidableEq, Repr, Inhabited

/-- A job as a host loads it (R2, R517): either a manager plan, or station images with the mapping (its header's bytes and its tables),
the membership entry, the seed table, the job's event-table entries, the collective and group tables, the checkpoint table, and the bytes
that the load writes at their device addresses (R377). -/
structure JobBundle where
  plan : Option Plan
  images : List StationImage
  header : Option Bytes
  tables : MapTables
  entry : Option Member
  seeds : Tbl Bytes
  events : List EvEntry
  records : List CollEntry
  groups : List (List Chunk)
  ckpt : Option CkptTable
  data : List (Nat × Bytes)
deriving DecidableEq, Repr, Inhabited

/-- The mapping that a bundle carries (R426, R427). -/
def JobBundle.mapping (b : JobBundle) : Option Mapping := b.header.map fun h => Mapping.parse h b.tables

def JobBundle.image (b : JobBundle) (n : Nat) : Option StationImage := b.images.find? fun i => i.number == n

/-- A collective record of a bundle: CR_GROUP picks the group table's entry, and the width comes from the tensor table of the record's
station image (R449, R450). -/
def JobBundle.collRec (b : JobBundle) (e : CollEntry) : CollRec :=
  CollRec.parse e.record e.station (b.groups.getD (leAt e.record 8 2) [])
    (((b.image e.station).bind fun i => i.tensors.find (leAt e.record 4 4)).getD 0) e.tiles

def JobBundle.colls (b : JobBundle) : List CollRec := b.records.map b.collRec

/-- What the governor measures (R583, R687): input voltage in mV, input current in units of 10 mA, the 1 ms average of the
input power in W, and coolant outlet and inlet in units of 0.1 °C. -/
structure Sensors where
  vin : Nat
  iin : Nat
  pin : Nat
  outlet : Int
  inlet : Int
deriving DecidableEq, Repr, Inhabited

/-- What a scrub finds in a line (R369, R372). -/
inductive ScrubResult where
  | clean
  | corrected (written : Bool)
  | uncorrectable
deriving DecidableEq, Repr, Inhabited

/-- What a maintenance activity measured (R588, R660): bank capacitance in µF and ESR in 0.1 mΩ, or the value of its
indicators in their units. -/
structure Measured where
  capUf : Nat
  esr : Nat
  values : List (Nat × Int)
deriving DecidableEq, Repr, Inhabited

/-- The conditions of a power-on (R578, R677, R678, R688): the slot pins, the coolant inlet in 0.1 °C, the level of
TAMPER_N, the step that fails (if one does), the channels of each quoin that trained, the session table that the firmware brings, if it
replaces the default one (R492), and whether the module is in a ring (R530). -/
structure PowerUp where
  slot : BitVec 6
  vin : Nat
  inlet : Int
  tamperHigh : Bool
  failStep : Option Nat
  chan0 : W32
  chan1 : W32
  table : Option SessTable
  ring : Bool
deriving DecidableEq, Repr, Inhabited

end Sys2Proof.Machine
end

