-- ==== Sys2Proof/Syntax.lean ====
section
/-!
DEFINITION. The commands of the module: one constructor per row of the table of operations and events. A row of a
spindle carries the number of the spindle that issues; the instruction itself is fetched and decoded by the meaning
(Machine/Operands.lean holds the instruction word's syntax). A row of a message carries the packet, a row of a treadle
frame the frame, and a row of an event what the event is about and what the sensors measured.
-/
namespace Sys2Proof

/-- A command (a row of the table); the docstring of each constructor gives its mnemonic and rule. -/
inductive Instr where
  /-- SCALAR_ALU (R290). -/
  | scalarAlu (n : Nat)
  /-- ALU_IMMEDIATE (R290). -/
  | aluImmediate (n : Nat)
  /-- LI (R290). -/
  | li (n : Nat)
  /-- LD (R290). -/
  | ld (n : Nat)
  /-- ST (R290). -/
  | st (n : Nat)
  /-- LD_D (R292). -/
  | ldD (n : Nat) (same : Bool)
  /-- ST_D (R292). -/
  | stD (n : Nat) (same : Bool)
  /-- ATOM_D (R292). -/
  | atomD (n : Nat) (same : Bool)
  /-- ATOM (R317). -/
  | atom (n : Nat)
  /-- CONDITIONAL_BRANCH (R290). -/
  | conditionalBranch (n : Nat)
  /-- JAL (R290). -/
  | jal (n : Nat)
  /-- JR (R280). -/
  | jr (n : Nat)
  /-- MOVS (R278). -/
  | movs (n : Nat)
  /-- END (R290). -/
  | endStation (n : Nat)
  /-- VECTOR_F32 (R293). -/
  | vectorF32 (n : Nat)
  /-- VRSUM_F32 (R293). -/
  | vrsumF32 (n : Nat)
  /-- VECTOR_INTEGER (R293). -/
  | vectorInteger (n : Nat)
  /-- VLD (R293). -/
  | vld (n : Nat)
  /-- VST (R293). -/
  | vst (n : Nat)
  /-- MASK_OPERATIONS (R293). -/
  | maskOperations (n : Nat)
  /-- MPOP (R293). -/
  | mpop (n : Nat)
  /-- VBCAST (R293). -/
  | vbcast (n : Nat)
  /-- VEXT (R293). -/
  | vext (n : Nat)
  /-- VPERM (R293). -/
  | vperm (n : Nat)
  /-- VSEL (R293). -/
  | vsel (n : Nat)
  /-- CVT (R239). -/
  | cvt (n : Nat)
  /-- CURVE (R297). -/
  | curve (n : Nat)
  /-- CURVE_D (R297). -/
  | curveD (n : Nat)
  /-- CURVE_GUMBEL (R267). -/
  | curveGumbel (n : Nat)
  /-- FMM_LDW (R91). -/
  | fmmLdw (n : Nat)
  /-- FMM (R96). -/
  | fmm (n : Nat)
  /-- BMM_LDB (R143). -/
  | bmmLdb (n : Nat)
  /-- BMM (R147). -/
  | bmm (n : Nat)
  /-- ARRAY_PASS_RETIRE (R101). -/
  | arrayPassRetire (n : Nat)
  /-- BMM_DEFER (R173). -/
  | bmmDefer (n : Nat)
  /-- BMM_DONE (R174). -/
  | bmmDone (n : Nat)
  /-- BMM_YIELD_Q (R178). -/
  | bmmYieldQ (n : Nat)
  /-- BMM_YIELD_K (R178). -/
  | bmmYieldK (n : Nat)
  /-- BMM_FLUSH (R179). -/
  | bmmFlush (n : Nat)
  /-- ESC_TERM (R304). -/
  | escTerm (n : Nat)
  /-- ACC_OPEN (R112). -/
  | accOpen (n : Nat)
  /-- ACC_RND (R125). -/
  | accRnd (n : Nat)
  /-- ACC_SAVE (R134). -/
  | accSave (n : Nat)
  /-- ACC_ADDX (R135). -/
  | accAddx (n : Nat)
  /-- ACC_CLEAR (R112). -/
  | accClear (n : Nat)
  /-- PULL (R307). -/
  | pull (n : Nat)
  /-- PULL_H (R305). -/
  | pullH (n : Nat)
  /-- PULL_REL (R305). -/
  | pullRel (n : Nat)
  /-- PUSH (R334). -/
  | push (n : Nat)
  /-- PUSH_CLOSE (R336). -/
  | pushClose (n : Nat)
  /-- PULL_A (R308). -/
  | pullA (x : Machine.StreamIssue)
  /-- PUSH_A (R308). -/
  | pushA (x : Machine.StreamIssue)
  /-- TRANSFER_COMPLETE (R306). -/
  | transferComplete (n : Nat) (prologue : Bool)
  /-- KNOT_ADD (R309). -/
  | knotAdd (n : Nat)
  /-- KNOT_SET (R309). -/
  | knotSet (n : Nat)
  /-- KNOT_WGE (R309). -/
  | knotWge (n : Nat)
  /-- KNOT_WEQ (R309). -/
  | knotWeq (n : Nat)
  /-- KNOT_RD (R309). -/
  | knotRd (n : Nat)
  /-- KNOT_WAKE (R341). -/
  | knotWake (die : Nat)
  /-- KNOT_TIMEOUT (R343). -/
  | knotTimeout (n : Nat)
  /-- QUEUE_TIMEOUT (R307). -/
  | queueTimeout (n : Nat)
  /-- QUEUE_FULL_TIMEOUT (R339). -/
  | queueFullTimeout (n : Nat)
  /-- RNG_U (R252). -/
  | rngU (n : Nat)
  /-- RNG_N (R256). -/
  | rngN (n : Nat)
  /-- RNG_MASK (R223). -/
  | rngMask (n : Nat)
  /-- MASK_COMPLETE (R224). -/
  | maskComplete (k : Nat)
  /-- RNG_SAMPLE (R259). -/
  | rngSample (n : Nat)
  /-- SAMPLE_REQUEST_SERVE (R263). -/
  | sampleRequestServe (die : Nat)
  /-- EVT_MARK (R311). -/
  | evtMark (n : Nat)
  /-- EVT_TRIG (R311). -/
  | evtTrig (n : Nat)
  /-- BANK_GIVE (R315). -/
  | bankGive (n : Nat)
  /-- BANK_TAKE (R315). -/
  | bankTake (n : Nat)
  /-- BANK_SHARE (R315). -/
  | bankShare (n : Nat)
  /-- STATION_START (R328). -/
  | stationStart (station : Nat) (sliver : Nat)
  /-- START_SEQ_GRANT (R584). -/
  | startSeqGrant
  /-- SKEIN_READY (R352). -/
  | skeinReady (k : Nat)
  /-- POWER_DOMAIN_RAISE (R581). -/
  | powerDomainRaise (domain : Nat)
  /-- PROLOGUE_TRIGGER (R348). -/
  | prologueTrigger (station : Nat) (k : Nat)
  /-- STATION_WATCHDOG (R652). -/
  | stationWatchdog (station : Nat)
  /-- TRACKER_REPORT (R190). -/
  | trackerReport (k : Nat)
  /-- TRACKER_STEP (R193). -/
  | trackerStep (k : Nat) (j : Nat)
  /-- TRACKER_WAIT_TIMEOUT (R189). -/
  | trackerWaitTimeout (n : Nat)
  /-- SPILL_RESERVATION (R206). -/
  | spillReservation (k : Nat)
  /-- SPILL_WAIT (R226). -/
  | spillWait (n : Nat)
  /-- SPILL_WAIT_TIMEOUT (R206). -/
  | spillWaitTimeout (n : Nat)
  /-- GEN_SLOT_BUILT (R400). -/
  | genSlotBuilt
  /-- BEAT_EDGE (R536). -/
  | beatEdge
  /-- VOTE (R539). -/
  | vote (f : Machine.TFrame)
  /-- TALLY (R539). -/
  | tally (f : Machine.TFrame)
  /-- COMMIT (R410). -/
  | commit (f : Machine.TFrame)
  /-- DEFER (R410). -/
  | defer (f : Machine.TFrame)
  /-- COMMIT_COMPLETE (R410). -/
  | commitComplete (us : Nat)
  /-- COMMIT_UNDECIDED (R411). -/
  | commitUndecided
  /-- STOP (R522). -/
  | stop (f : Machine.TFrame)
  /-- BYPASS (R531). -/
  | bypass (f : Machine.TFrame)
  /-- UNBYPASS (R531). -/
  | unbypass (f : Machine.TFrame)
  /-- NOP (R525). -/
  | nop (f : Machine.TFrame)
  /-- TREADLE_LOST (R526). -/
  | treadleLost
  /-- BYPASS_SWITCH_CHANGE (R532). -/
  | bypassSwitchChange
  /-- RING_HOLD_EXPIRY (R531). -/
  | ringHoldExpiry
  /-- ROSTER (R546). -/
  | roster (p : Machine.Packet)
  /-- HEARTBEAT (R545). -/
  | heartbeat (p : Machine.Packet)
  /-- HEARTBEAT_TIMER (R545). -/
  | heartbeatTimer
  /-- FAILED (R549). -/
  | failed (p : Machine.Packet)
  /-- TAKEOVER (R550). -/
  | takeover (p : Machine.Packet)
  /-- STATUS (R545). -/
  | status (p : Machine.Packet)
  /-- COLLATERAL_WAIT_EXPIRY (R548). -/
  | collateralWaitExpiry
  /-- HELLO (R483). -/
  | hello (p : Machine.Packet)
  /-- PROVE (R485). -/
  | prove (p : Machine.Packet)
  /-- OPEN_OK (R483). -/
  | openOk (p : Machine.Packet)
  /-- OPEN_REFUSED (R488). -/
  | openRefused (p : Machine.Packet)
  /-- ACK (R478). -/
  | ack (p : Machine.Packet)
  /-- PROBE (R490). -/
  | probe (p : Machine.Packet)
  /-- RESYNC (R488). -/
  | resync (p : Machine.Packet)
  /-- RESYNC_ACK (R488). -/
  | resyncAck (p : Machine.Packet)
  /-- CLOSE (R488). -/
  | close (p : Machine.Packet)
  /-- CLOSE_ACK (R488). -/
  | closeAck (p : Machine.Packet)
  /-- IDENTIFY (R493). -/
  | identify (p : Machine.Packet)
  /-- REG_READ (R499). -/
  | regRead (p : Machine.Packet)
  /-- REG_WRITE (R499). -/
  | regWrite (p : Machine.Packet)
  /-- SUBSCRIBE (R500). -/
  | subscribe (p : Machine.Packet)
  /-- JOB_LOAD (R692). -/
  | jobLoad (p : Machine.Packet) (b : Machine.JobBundle)
  /-- JOB_UNLOAD (R377). -/
  | jobUnload (p : Machine.Packet)
  /-- BULK_CREATE_SNAPSHOT (R503). -/
  | bulkCreateSnapshot (p : Machine.Packet)
  /-- BULK_CREATE_IMAGE (R604). -/
  | bulkCreateImage (p : Machine.Packet)
  /-- BULK_CREATE_JOB_BUNDLE (R503). -/
  | bulkCreateJobBundle (p : Machine.Packet)
  /-- BULK_CREATE_RESTORE (R568). -/
  | bulkCreateRestore (p : Machine.Packet)
  /-- BULK_CREATE_DUMP (R656). -/
  | bulkCreateDump (p : Machine.Packet)
  /-- BULK_CREATE_TRACE (R654). -/
  | bulkCreateTrace (p : Machine.Packet)
  /-- BULK_CANCEL (R509). -/
  | bulkCancel (p : Machine.Packet)
  /-- DUMP (R655). -/
  | dump (p : Machine.Packet)
  /-- ATTEST (R609). -/
  | attest (p : Machine.Packet)
  /-- BULK_DATA (R504). -/
  | bulkData (p : Machine.Packet)
  /-- BULK_JOURNAL (R508). -/
  | bulkJournal (p : Machine.Packet)
  /-- BULK_END (R509). -/
  | bulkEnd (p : Machine.Packet)
  /-- BULK_ABORT (R509). -/
  | bulkAbort (p : Machine.Packet)
  /-- TILE_SEG (R502). -/
  | tileSeg (p : Machine.Packet)
  /-- TILE_RESEND (R455). -/
  | tileResend (p : Machine.Packet)
  /-- GRANT (R462). -/
  | grant (p : Machine.Packet)
  /-- CONTRIB_RETRY (R459). -/
  | contribRetry (p : Machine.Packet)
  /-- GATHER_REQ (R415). -/
  | gatherReq (g : Machine.GatherMsg)
  /-- VERSION_GONE (R417). -/
  | versionGone (p : Machine.Packet)
  /-- ABORT (R512). -/
  | abort (p : Machine.Packet)
  /-- COUNT (R451). -/
  | count (p : Machine.Packet)
  /-- T_SUS_EXPIRY (R490). -/
  | tSusExpiry (i : Nat)
  /-- IDLE_PROBE (R490). -/
  | idleProbe (i : Nat)
  /-- T_DEAD_EXPIRY (R488). -/
  | tDeadExpiry (i : Nat)
  /-- T_OPEN_EXPIRY (R488). -/
  | tOpenExpiry (i : Nat)
  /-- HELLO_REPEAT (R483). -/
  | helloRepeat (i : Nat)
  /-- RESYNC_REPEAT (R489). -/
  | resyncRepeat (i : Nat)
  /-- CLOSE_REPEAT (R489). -/
  | closeRepeat (i : Nat)
  /-- ACK_DELAY_EXPIRY (R479). -/
  | ackDelayExpiry (i : Nat)
  /-- RETRANSMISSION_TIMEOUT (R481). -/
  | retransmissionTimeout (i : Nat)
  /-- BULK_HOLD_EXPIRY (R507). -/
  | bulkHoldExpiry (op : W64)
  /-- BULK_HELLO_REPEAT (R507). -/
  | bulkHelloRepeat (op : W64)
  /-- BULK_JOURNAL_TIMER (R505). -/
  | bulkJournalTimer (op : W64)
  /-- EVENT_RATE_INTERVAL (R632). -/
  | eventRateInterval
  /-- ETH_FRAME_RX (R441). -/
  | ethFrameRx (fr : Machine.Frame)
  /-- PORT_DOWN (R446). -/
  | portDown (port : Nat)
  /-- PORT_REJOIN (R446). -/
  | portRejoin (port : Nat)
  /-- COLLECTIVE_TRIGGER (R452). -/
  | collectiveTrigger (rec : Nat)
  /-- COLLECTIVE_TIMEOUT (R456). -/
  | collectiveTimeout (rec : Nat)
  /-- STRATUM_SCRUB (R369). -/
  | stratumScrub (die : Nat) (r : Machine.ScrubResult)
  /-- LPD_SCRUB (R372). -/
  | lpdScrub (q : Nat) (r : Machine.ScrubResult)
  /-- LPD_RETRAIN (R363). -/
  | lpdRetrain (q : Nat) (chan : Nat) (ok : Bool)
  /-- MORTAR_LINK_DOWN (R29). -/
  | mortarLinkDown (link : Nat)
  /-- MGMT_WATCHDOG_MISS (R31). -/
  | mgmtWatchdogMiss
  /-- STRATUM_CLEAR_DONE (R376). -/
  | stratumClearDone (die : Nat)
  /-- LPD_CLEAR_DONE (R376). -/
  | lpdClearDone (q : Nat)
  /-- SNAP_PROTECTED_WRITE (R381). -/
  | snapProtectedWrite (page : Nat)
  /-- SNAP_COPY_DONE (R381). -/
  | snapCopyDone (page : Nat)
  /-- SNAP_STREAM_PAGE (R381). -/
  | snapStreamPage
  /-- SNAP_STREAM_READ_DONE (R381). -/
  | snapStreamReadDone
  /-- SNAP_POOL_TIMEOUT (R384). -/
  | snapPoolTimeout
  /-- POWER_ON (R578). -/
  | powerOn (u : Machine.PowerUp)
  /-- PWR_EN_FALL (R673). -/
  | pwrEnFall
  /-- VIN_OVERVOLTAGE (R577). -/
  | vinOvervoltage
  /-- VIN_SWITCH_CLOSE (R577). -/
  | vinSwitchClose
  /-- VIN_HIGH (R577). -/
  | vinHigh
  /-- SAG_DETECT (R586). -/
  | sagDetect
  /-- SAG_PAUSED (R587). -/
  | sagPaused
  /-- SAG_GATHER_DONE (R587). -/
  | sagGatherDone
  /-- SAG_SAVE_DONE (R587). -/
  | sagSaveDone (us : Nat)
  /-- SAG_RECOVERY (R592). -/
  | sagRecovery
  /-- SAG_HOLD_TIMEOUT (R593). -/
  | sagHoldTimeout
  /-- VRST_RESET (R594). -/
  | vrstReset
  /-- SAG_ERASE_DONE (R595). -/
  | sagEraseDone
  /-- GOVERNOR_TICK (R583). -/
  | governorTick (m : Machine.Sensors)
  /-- COOLANT_LIMIT (R687). -/
  | coolantLimit
  /-- PWR_MODE_WRITE (R581). -/
  | pwrModeWrite (v : W32)
  /-- PWR_PEAK_GRANT_WRITE (R582). -/
  | pwrPeakGrantWrite (v : W32)
  /-- PEAK_LEASE_EXPIRY (R582). -/
  | peakLeaseExpiry
  /-- CAP_TEST_ABANDON (R598). -/
  | capTestAbandon
  /-- PWR_PIN_READ (R637). -/
  | pwrPinRead
  /-- BOOT (R603). -/
  | boot
  /-- IMAGE_RESET_TIMER (R604). -/
  | imageResetTimer
  /-- FUSE_ROLE (R611). -/
  | fuseRole (arg : Nat) (origin : W64)
  /-- FUSE_SVN_MIN (R611). -/
  | fuseSvnMin (arg : Nat) (origin : W64)
  /-- FUSE_REVOKE (R611). -/
  | fuseRevoke (arg : Nat) (origin : W64)
  /-- FUSE_OWNER_INSTALL (R611). -/
  | fuseOwnerInstall (arg : Nat) (origin : W64)
  /-- FUSE_ADDRESS_BLOCK (R611). -/
  | fuseAddressBlock (arg : Nat) (origin : W64)
  /-- FUSE_LIFE_CYCLE (R617). -/
  | fuseLifeCycle (arg : Nat) (origin : W64)
  /-- FUSE_LEDGER_SEL_WRITE (R621). -/
  | fuseLedgerSelWrite (v : W32)
  /-- TAMPER (R618). -/
  | tamper (src : Nat)
  /-- SEC_TAMPER_CLEAR (R619). -/
  | secTamperClear (v : W32) (active : BitVec 4)
  /-- PAGE_LOCK (R628). -/
  | pageLock (page : Nat)
  /-- SRESET (R627). -/
  | sreset (page : Nat)
  /-- ENABLE_WRITE (R626). -/
  | enableWrite (page : Nat) (on : Bool)
  /-- ERR_VALID_CLEAR (R630). -/
  | errValidClear (page : Nat)
  /-- EVT_PEND_CLEAR (R629). -/
  | evtPendClear (page : Nat) (v : W32)
  /-- EVT_FORCE (R631). -/
  | evtForce (page : Nat) (v : W32)
  /-- COUNTER_SNAP (R635). -/
  | counterSnap (page : Nat)
  /-- PLY_TRK_SEL_WRITE (R196). -/
  | plyTrkSelWrite (k : Nat) (v : W32)
  /-- QUE_SEL_WRITE (R353). -/
  | queSelWrite (die : Nat) (v : W32)
  /-- KNT_SEL_WRITE (R354). -/
  | kntSelWrite (die : Nat) (v : W32)
  /-- MRN_SESS_SEL_WRITE (R513). -/
  | mrnSessSelWrite (e : Nat) (v : W32)
  /-- PLY_CHAN_FACTOR_WRITE (R228). -/
  | plyChanFactorWrite (k : Nat) (v : W32)
  /-- LPD_CTL_CLEAR (R375). -/
  | lpdCtlClear (q : Nat) (v : W32)
  /-- STR_FAIL_VALID_CLEAR (R369). -/
  | strFailValidClear (die : Nat)
  /-- TRD_CTL_BYPASS (R531). -/
  | trdCtlBypass (v : W32)
  /-- EVT_SEL_WRITE (R556). -/
  | evtSelWrite (v : W32)
  /-- EVT_ENT7_WRITE (R556). -/
  | evtEnt7Write (v : W32)
  /-- MAKE_SPARE (R552). -/
  | makeSpare
  /-- TRD_POS_LO_READ (R555). -/
  | trdPosLoRead
  /-- TRC_CTL_TRIG (R647). -/
  | trcCtlTrig
  /-- TRC_CTL_REARM (R650). -/
  | trcCtlRearm
  /-- RING_FREEZE (R648). -/
  | ringFreeze (page : Nat)
  /-- POST_MAX_EXPIRY (R648). -/
  | postMaxExpiry
  /-- BULK_STALL_TRIGGER (R647). -/
  | bulkStallTrigger (op : W64)
  /-- WEAR_DAILY_SAMPLE (R661). -/
  | wearDailySample
  /-- MNT_REQ_CAP_TEST (R664). -/
  | mntReqCapTest
  /-- MNT_REQ_MARGIN_SCAN (R664). -/
  | mntReqMarginScan (port : Nat)
  /-- MNT_REQ_COMPACT (R664). -/
  | mntReqCompact
  /-- MNT_REQ_AGE_CAL (R664). -/
  | mntReqAgeCal
  /-- MNT_REQ_BYPASS_TEST (R665). -/
  | mntReqBypassTest
  /-- MNT_PERIODIC_REQUEST (R662). -/
  | mntPeriodicRequest (act : Nat)
  /-- MAINT_ACTIVITY_END (R664). -/
  | maintActivityEnd (act : Nat) (d : Machine.Measured)
  /-- MNT_DEFER_TIMEOUT (R664). -/
  | mntDeferTimeout (act : Nat)
  /-- MAINT_WINDOW_CLOSE (R665). -/
  | maintWindowClose
  /-- RING_LOCK (R524). -/
  | ringLock
  /-- ETH_LINK_UP (R435). -/
  | ethLinkUp (port : Nat) (lanes : Nat) (speed : Nat)
  /-- VIN_LOW_BEFORE_PG (R578). -/
  | vinLowBeforePg
deriving DecidableEq, Repr

end Sys2Proof
end

