-- ==== Sys2Proof/Decode.lean ====
section
/-!
DEFINITION. The words that spell a command by the bits of the table of operations. No row of the table gives bits, so no
word spells a command. The 64-bit instruction words of a spindle are another thing: a row of a spindle instruction fetches
and decodes them in its meaning (Machine/Operands.lean, `decodeSp`).
-/
namespace Sys2Proof

/-- No row of the table gives bits. -/
def decodeTableWord (nbits w : Nat) : Option Instr :=
  match nbits, w with
  | _, _ => none

end Sys2Proof
end

