-- ==== Sys2Proof/Config.lean ====
section
/-!
DEFINITION. What the spec leaves open: free values. Each is a constant without a body, so nothing can be proved about its
value; a meaning applies it to what the value may depend on, or to the counter `free` of State.
-/
namespace Sys2Proof

/-- A division lane that is not exact lies within one unit of the last place (R294): whether the upper neighbour is
taken, by the two operands. -/
opaque Config.divUpper : W32 → W32 → Bool

/-- As `divUpper`, for a square root (R294). -/
opaque Config.sqrtUpper : W32 → Bool

/-- The sign of an exactly zero curve result whose exact value is zero (R297): curve number, derivative or not, operand. -/
opaque Config.zeroCurveNeg : Nat → Bool → W32 → Bool

/-- A source element rescaled by a factor that is not finite, or divided by zero (R222). -/
opaque Config.rescaleOpen : Bool → W32 → W32 → W32

/-- What a torn exchange-bank access reads (R319). -/
opaque Config.torn : Nat → BitVec 64

/-- TOKEN, EMPTY and KEPT of a row whose inputs the station changed before the request was served (R271), by the free index
of the request and the row. -/
opaque Config.sampleOpen : Nat → Nat → Nat

/-- The weight, as binary32, of a candidate whose e_v is a NaN (R266: the spec gives no exact sum with one), by its logit and the first
candidate's. -/
opaque Config.nucleusOpen : W32 → W32 → W32

/-- The bytes of a 64-byte line that an uncorrectable error left (R358, R369), by a free index and the offset. -/
opaque Config.badByte : Nat → Nat → Byte

/-- Secret bytes that the module draws from its own entropy source: session nonces and X448 secrets (R485). -/
opaque Config.entropy : Nat → Nat → Bytes

/-- The seed of the module's Ed448 identity key, 57 bytes of which the meaning takes the first 57 (R608). -/
opaque Config.identitySeed : Nat → Bytes

/-- What the vendor session fuses at the transition from BLANK to PROVISIONED (R616, R691): the role (true: manager), the base
address of the Ethernet block, and the owner key of slot 0. -/
opaque Config.orderRole : Bool
opaque Config.orderBlock : Nat
opaque Config.orderOwner : Bytes

/-- The bytes of a section of a sag-save image whose layout the spec does not give (R591). -/
opaque Config.sagBytes : Nat → Nat → Byte

/-- What the packages of a quoin read of their temperature, 4 bits each (R361, R390), by a free index. -/
opaque Config.lpdTemp : Nat → Nat → W32

/-- An access of a streaming engine reaches an exchange bank in the same cycle as the bank's last access (R319), by a free index. -/
opaque Config.sameCycle : Nat → Bool

/-- The serial that a collective's result draws with where its generation number is not held (R246), by the number. -/
opaque Config.unheldSerial : Nat → Nat

/-- Replays of a mortar link on the way to three failed retrainings (R29), by a free index. -/
opaque Config.mortarReplays : Nat → Nat

/-- What happens to DRAM in a cycle without a command (R358, R362), by a free index: nothing, one wrong bit in a word (false), or an
uncorrectable error in its line (true); the word by the address of its 8 bytes divided by 8. -/
opaque Config.upset : Nat → Option (Bool × Nat)

/-- Microseconds from P to a COMMIT decision that came after P (R411, R431), by a free index. -/
opaque Config.lateUs : Nat → Nat

/-- Days until a prediction of a wear indicator crosses its limit, where the spec gives no exact number (R661): for the 90 % bound (true) or
the fitted curve of a ring-oscillator indicator (false), by the samples fitted and the limit; 2³² − 1 where it shows no approach. -/
opaque Config.wearDays : Bool → List Int → Int → Nat

/-- The keep store's mean erase count, per mille of the rated one, as a write leaves it (R660), by a free index. -/
opaque Config.keepErase : Nat → Nat

/-- Whether a part of a day counts as one more in a prediction of a straight line (R661), by the samples fitted. -/
opaque Config.wearRound : List Int → Bool

/-- The round trip in beats that a head of a job with a trunk does not measure itself (R539, R541), by a free index. -/
opaque Config.otherTrip : Nat → Nat

/-- Milliseconds that remain of a PEAK lease (R582, R599), by the lease and the Q0 stamp: the state holds no time. A read shows no more than
the lease. -/
opaque Config.leaseLeft : Nat → Nat → Nat

/-- TD_GEN of a reduced result where GEN_VALID is set, by tensor and tile index (R80, R460: the spec gives the result no
generation). -/
opaque Config.resultGen : Nat → Nat → Option Nat

/-- The value that a contribution's element in F32 which is not finite adds to an exact reduction (R458), as a numerator and a
power of two. -/
opaque Config.reduceOpen : W32 → Int × Int

/-- MH_SESSION of the CLOSE that answers a packet for an unknown session, by that packet's MH_SESSION: the id that its sender assigned,
which the module does not hold (R471, R476). -/
opaque Config.strayId : Nat → Nat

/-- The public key of a vendor slot, of which the fuses hold only the digest, where the running image does not carry it (R485, R616). -/
opaque Config.vendorKey : Nat → Bytes

/-- The CHALLENGE signature of a module that has no identity key (R485, R608). -/
opaque Config.noSignature : Nat → Bytes

/-- The error code with which BULK_CANCEL ends an operation (R509): a class and a number within it, which the spec does not give. -/
opaque Config.cancelPick : Nat × Nat

/-- That code, of a class and a number that are in use (R638, R639). -/
def Config.cancelCode : BitVec 16 := BitVec.ofNat 16 (256 * (1 + Config.cancelPick.1 % 9) + 1 + Config.cancelPick.2 % 255)

/-- AR_TABLE_DIGEST of the default session state table, whose image the spec does not give in full (R492, R609). -/
opaque Config.tableDigest : List Byte

end Sys2Proof
end

