-- ==== Sys2Proof/Machine/State.lean ====
section
/-!
DEFINITION. The state of the module as plain data: everything the spec gives it, and the queue of commands that wait. The
parts are declared in SpindleState, GenState, MrnState and ModuleState.
-/
namespace Sys2Proof.Machine

/-- No command ends in a fault: the spec names no condition in which the module as a whole stops without a next state
(a station's stop, a job's stop and a module reset are states). -/
inductive Fault
deriving DecidableEq, Repr

/-- Refusals. `notModelled` is raised by a row of Dispatch.lean whose command has no meaning yet (safe). -/
inductive Refusal where
  | notModelled (mnemonic : String)
deriving DecidableEq, Repr

/-- A message to a peer with whom no session stands yet: rank, plane, message. -/
structure Unsent where
  rank : Nat
  plane : Nat
  msg : Msg
deriving DecidableEq, Repr, Inhabited

/-- A job bundle as its JOB_LOAD brought it, until the command runs: the command id and the bundle. -/
structure Bundle where
  cmd : W64
  job : JobBundle
deriving DecidableEq, Repr, Inhabited

/-- The job (R1–R3, R329, R640): state, serial, what was loaded, the load that waits for its die wakes (R377), and the
ATTESTs that wait (R610). Station images lie in State.stations. -/
structure Job where
  state : JobState
  serial : Nat
  stop : StopRec
  isPlan : Bool
  mapping : Option Mapping
  entry : Option Member
  seeds : Tbl Bytes
  colls : List CollRec
  runs : Tbl CollRun
  gathers : List Gather
  gatherSeq : Nat
  served : List GatherServe
  unsent : List Unsent
  ckpt : Option CkptTable
  bundles : List Bundle
  loading : Option (JobBundle × W64)
  attests : List WaitingCmd
deriving DecidableEq, Repr, Inhabited

/-- No job (R640). -/
def Job.reset : Job :=
  { state := .none, serial := 0, stop := StopRec.none, isPlan := false, mapping := none, entry := none, seeds := [],
    colls := [], runs := [], gathers := [], gatherSeq := 0, served := [], unsent := [], ckpt := none, bundles := [], loading := none, attests := [] }

/-- The state. `pending` is the queue of commands; `free` counts the free values drawn so far (the model's own). `mem` is
the memory of the whole device address space, the spindles' local memories included; `bad` lists the 64-byte lines that read with
UNCORR, `soft` the 64-bit words, by address over 8, whose read finds a single-bit error (R358, R362, R369: faults of the DRAM, which no
command but a scrub reports; log entry 112); `transit` the transfers under way, in the order in which they were issued (R27). -/
structure State where
  pending : List Instr
  free : Nat
  job : Job
  mem : Tbl Byte
  bad : List Nat
  soft : List Nat
  sp : Tbl Spindle
  sk : Tbl Skein
  smp : Tbl Sampler
  queues : Tbl Queue
  engines : Tbl QueueEngine
  knots : Tbl Knot
  knotWin : Tbl KnotBlock
  waiters : List Waiter
  transit : List Transit
  stations : Tbl Station
  gen : GenEngine
  red : Tbl RedEngine
  ports : Tbl Port
  mrn : Miornal
  evtSent : Tbl Nat
  pages : Tbl PageHdr
  rings : Tbl Ring
  trace : TraceUnit
  stamps : Tbl Nat
  bases : Tbl Nat
  trd : Treadle
  evt : EventTable
  mgr : Manager
  snap : Snapshot
  strat : Tbl Stratum
  lpd : Tbl Lpd
  dies : Tbl Die
  mortars : Tbl Mortar
  ctlOnQ1 : Bool
  power : PowerSt
  sag : Sag
  trust : Trust
  wear : Wear
  maint : Maint
deriving DecidableEq, Repr, Inhabited

/-- The fuses of the reset state: variant X, life cycle BLANK, nothing changed yet; the fused digests are not given by the
spec (DESIGN CHOICE, assumption 2). -/
def Fuses.reset : Fuses :=
  { variant := 1, roleBase := false, roleN := 0, svnMin := 0, revoked := 0, ownerN := 0, addrN := 0, lcN := 0, lc := 0,
    addrBlock := 0, vendorDigests := [zeros 32, zeros 32, zeros 32, zeros 32], ownerKeys := [], ownersOff := false,
    idKey := false }

def Trust.reset : Trust :=
  { fuses := Fuses.reset, mirrorA := some Fuses.reset, mirrorB := some Fuses.reset, fw := [], running := none,
    bootReason := 0, recovery := false, tamper := 0, tamperActive := 0, tamperHeld := 0, mgrRole := false, addrBase := 0, ledger := [], ledger2 := [], ledgerBad := 0,
    stage := [], fuseErr := 0, lsel := 0, ldata := [], imageTimer := false, slotWrite := none }

/-- The module before its first power-on: every register at its reset value, nothing loaded, PG low. -/
def State.reset : State :=
  { pending := [], free := 0, job := Job.reset, mem := [], bad := [], soft := [], sp := [], sk := [], smp := [], queues := [],
    engines := [], knots := [], knotWin := [], waiters := [], transit := [], stations := [], gen := GenEngine.reset, red := [],
    ports := [], mrn := Miornal.reset, evtSent := [], pages := [], rings := [], trace := TraceUnit.reset, stamps := [],
    bases := [], trd := Treadle.reset, evt := EventTable.reset, mgr := Manager.reset, snap := Snapshot.reset, strat := [],
    lpd := [], dies := [], mortars := [], ctlOnQ1 := false, power := PowerSt.reset, sag := Sag.reset,
    trust := Trust.reset, wear := Wear.reset, maint := Maint.reset }

end Sys2Proof.Machine
end

