-- ==== Sys2Proof/Machine/Ops.lean ====
section
/-!
DEFINITION. The named operations over the state that every family of commands shares: numbering of units and pages,
counters and error latches, memory, trace rings and triggers, messages to a session's peer, events, and the stop of a
spindle, a station and a job.
-/
namespace Sys2Proof.Machine

/-! ### Numbering (R30, R50, R355, R622) -/

def dieOfSpindle (n : Nat) : Nat := n / 1152
def skeinOf (n : Nat) : Nat := n / 64
def dieOfSkein (k : Nat) : Nat := k / 18

def pgMOD : Nat := 0
def pgPWR : Nat := 1
def pgSAG : Nat := 2
def pgTRD : Nat := 3
def pgEVT : Nat := 4
def pgMGR : Nat := 5
def pgSNP : Nat := 6
def pgTRC : Nat := 7
def pgWEAR : Nat := 8
def pgMNT : Nat := 9
def pgSEC : Nat := 10
def pgFUSE : Nat := 11
def pgETH (p : Nat) : Nat := 12 + p
def pgMRN (e : Nat) : Nat := 20 + e
def pgRED (q : Nat) : Nat := 22 + q
def pgLPD (q : Nat) : Nat := 24 + q
def pgSTR (d : Nat) : Nat := 26 + d
def pgQUE (d : Nat) : Nat := 30 + d
def pgKNT (d : Nat) : Nat := 34 + d
def pgSMP (d : Nat) : Nat := 38 + d
def pgSKN (k : Nat) : Nat := 42 + k
def pgPLY (k : Nat) : Nat := 114 + k
def pgSPD (n : Nat) : Nat := 186 + n
def pageCount : Nat := 4794

/-- First page, instances and code of each block type, in page order (R622). -/
def pageMap : List (Nat × Nat × Nat) :=
  [(0, 1, 0x01), (1, 1, 0x02), (2, 1, 0x03), (3, 1, 0x04), (4, 1, 0x05), (5, 1, 0x06), (6, 1, 0x07), (7, 1, 0x08),
   (8, 1, 0x09), (9, 1, 0x0A), (10, 1, 0x0B), (11, 1, 0x0C), (12, 8, 0x10), (20, 2, 0x11), (22, 2, 0x12), (24, 2, 0x13),
   (26, 4, 0x20), (30, 4, 0x21), (34, 4, 0x22), (38, 4, 0x23), (42, 72, 0x30), (114, 72, 0x31), (186, 4608, 0x32)]

/-- Block-type code and instance of a page (R622). -/
def pageBlock (page : Nat) : Nat × Nat :=
  match pageMap.find? fun e => decide (e.1 ≤ page) && decide (page < e.1 + e.2.1) with
  | some e => (e.2.2, page - e.1)
  | none => (0, 0)

/-- Variants X, T, G, H (R14). -/
def State.isX (s : State) : Bool := s.trust.fuses.variant == 1
def State.isH (s : State) : Bool := s.trust.fuses.variant == 4
/-- Both planes are fitted on X and T (R5). -/
def State.hasB (s : State) : Bool := s.trust.fuses.variant == 1 || s.trust.fuses.variant == 2
def State.hasSmp (s : State) : Bool := s.trust.fuses.variant == 1 || s.trust.fuses.variant == 3
def State.diePresent (s : State) (d : Nat) : Bool := decide (d < 4) && !(s.isH && d % 2 == 1)
def State.skeinPresent (s : State) (k : Nat) : Bool := decide (k < 72) && s.diePresent (dieOfSkein k)
def State.spindlePresent (s : State) (n : Nat) : Bool := decide (n < 4608) && s.diePresent (dieOfSpindle n)

/-- A unit's page reads as present (R16, R625). -/
def State.pagePresent (s : State) (page : Nat) : Bool :=
  let b := pageBlock page
  if pageCount ≤ page then false
  else if b.1 == 0x06 then s.isX
  else if b.1 == 0x10 then decide (b.2 < 4) || s.hasB
  else if b.1 == 0x23 then s.hasSmp && s.diePresent b.2
  else if b.1 == 0x20 || b.1 == 0x21 || b.1 == 0x22 then s.diePresent b.2
  else if b.1 == 0x30 || b.1 == 0x31 then s.skeinPresent b.2
  else if b.1 == 0x32 then s.spindlePresent b.2
  else true

/-! ### Parts of the state -/

def State.spindle (s : State) (n : Nat) : Spindle := s.sp.get Spindle.reset n
def State.setSpindle (s : State) (n : Nat) (x : Spindle) : State := { s with sp := s.sp.set Spindle.reset n x }
def State.skein (s : State) (k : Nat) : Skein := s.sk.get Skein.reset k
def State.setSkein (s : State) (k : Nat) (x : Skein) : State := { s with sk := s.sk.set Skein.reset k x }
def State.knot (s : State) (k : Nat) : Knot := s.knots.get Knot.reset k
def State.setKnot (s : State) (k : Nat) (x : Knot) : State := { s with knots := s.knots.set Knot.reset k x }
def State.queue (s : State) (q : Nat) : Queue := s.queues.get Queue.reset q
def State.setQueue (s : State) (q : Nat) (x : Queue) : State := { s with queues := s.queues.set Queue.reset q x }
def State.page (s : State) (p : Nat) : PageHdr := s.pages.get PageHdr.reset p
def State.setPage (s : State) (p : Nat) (x : PageHdr) : State := { s with pages := s.pages.set PageHdr.reset p x }
def State.ring (s : State) (p : Nat) : Ring := s.rings.get Ring.reset p
def State.setRing (s : State) (p : Nat) (x : Ring) : State := { s with rings := s.rings.set Ring.reset p x }
def State.die (s : State) (d : Nat) : Die := s.dies.get ⟨false, false⟩ d
def State.setDie (s : State) (d : Nat) (x : Die) : State := { s with dies := s.dies.set ⟨false, false⟩ d x }
def State.stratum (s : State) (d : Nat) : Stratum := s.strat.get Stratum.reset d
def State.setStratum (s : State) (d : Nat) (x : Stratum) : State := { s with strat := s.strat.set Stratum.reset d x }
def State.lpdOf (s : State) (q : Nat) : Lpd := s.lpd.get Lpd.reset q
def State.setLpd (s : State) (q : Nat) (x : Lpd) : State := { s with lpd := s.lpd.set Lpd.reset q x }
def State.port (s : State) (p : Nat) : Port := s.ports.get Port.reset p
def State.setPort (s : State) (p : Nat) (x : Port) : State := { s with ports := s.ports.set Port.reset p x }
def State.session (s : State) (i : Nat) : Session := s.mrn.sessions.get Session.fresh i
def State.setSession (s : State) (i : Nat) (x : Session) : State :=
  { s with mrn := { s.mrn with sessions := s.mrn.sessions.set Session.fresh i x } }
def State.station (s : State) (n : Nat) : Option Station := s.stations.find n
def State.setStation (s : State) (n : Nat) (x : Station) : State := { s with stations := s.stations.put n x }

/-- The module is paused by the sag sequence (R586, R587). -/
def State.paused (s : State) : Bool :=
  s.sag.state == .pausing || s.sag.state == .saving || s.sag.state == .hold || s.sag.state == .resuming

/-- A job or manager plan is loaded (R2, R517): in every state but NONE. -/
def State.jobLoaded (s : State) : Bool := s.job.state != .none

/-- A fresh index of a free value. -/
def State.draw (s : State) : Nat × State := (s.free, { s with free := s.free + 1 })

/-! ### Counters and error latches (R630, R633–R637) -/

/-- Width of a counter: by CNT_SEL number, or 32 bits for one with a register of its own. -/
def ctrWidth (page key : Nat) : Nat :=
  let b := (pageBlock page).1
  if 0x40 ≤ key then (if b == 0x04 && key == 0x210 then 8 else if b == 0x02 && key == 0x54 then 24 else 32)
  else if b == 0x32 then (if key == 0 then 48 else 40)
  else if b == 0x03 then 32
  else 48

def PageHdr.counter (h : PageHdr) (key : Nat) : Nat := h.ctr.get 0 key

/-- Counts `n` more, saturating at the counter's largest value (R633). -/
def State.count (s : State) (page key n : Nat) : State :=
  let h := s.page page
  s.setPage page { h with ctr := h.ctr.set 0 key (satAdd (2 ^ ctrWidth page key - 1) (h.counter key) n) }

/-- Sets a counter to zero other than by power-on: the old value goes to LAST and into the snapshot (R635, R637). -/
def PageHdr.resetCtr (h : PageHdr) (key : Nat) : PageHdr :=
  { h with ctr := h.ctr.del key, last := h.last.set 0 key (h.counter key), snap := h.snap.set 0 key (h.counter key) }

/-- Counters of a page that one reset sets to zero: the page's snapshot is taken with it, once (R635, R637). -/
def State.resetCounters (s : State) (page : Nat) (keys : List Nat) : State :=
  let h := keys.foldl PageHdr.resetCtr (s.page page)
  s.setPage page { h with snapSeq := (h.snapSeq + 1) % 2 ^ 16 }

def State.resetCounter (s : State) (page key : Nat) : State := s.resetCounters page [key]

/-- Every counter of a page is set to zero (R637). -/
def PageHdr.resetAll (h : PageHdr) : PageHdr :=
  { h with snap := h.ctr, last := h.ctr, ctr := [], snapSeq := (h.snapSeq + 1) % 2 ^ 16 }

/-- A snapshot of a page's counters (R635). -/
def PageHdr.takeSnap (h : PageHdr) : PageHdr := { h with snap := h.ctr, snapSeq := (h.snapSeq + 1) % 2 ^ 16 }

/-- Every present page changed, in page order (R622, R625). -/
def State.mapPages (s : State) (f : Nat → PageHdr → PageHdr) : State :=
  { s with pages := (List.range pageCount).filterMap fun p =>
      let h := s.page p
      let h := if s.pagePresent p then f p h else h
      if h = PageHdr.reset then none else some (p, h) }

/-- Latches an error in ERR_CODE, or counts it in MORE (R630). -/
def State.latchErr (s : State) (page : Nat) (code : W16) (info : W32) : State :=
  let h := s.page page
  s.setPage page (if h.errValid then { h with errMore := satAdd 0xFFFF h.errMore 1 }
    else { h with errValid := true, errCode := code, errInfo := info })

/-- ERR_INFO where the chapter gives nothing: block-type code and instance (R630). -/
def unitInfo (page : Nat) : W32 :=
  let b := pageBlock page
  BitVec.ofNat 32 (b.1 * 2 ^ 16 + b.2)

/-! ### The memories (R355–R377) -/

/-- What a device address names (R355). -/
inductive Region where
  | stratum (die : Nat)
  | descriptors (die : Nat)
  | module
  | locals (n : Nat)
  | pool (k : Nat)
  | quoin (q : Nat)
  | secure
  | registers
  | unlisted
deriving DecidableEq, Repr

def stratumSize : Nat := 2 ^ 34
def moduleBase : Nat := 0x010000000000
def localBase (n : Nat) : Nat := 0x020000000000 + n * 0x40000
def poolBase (k : Nat) : Nat := 0x021000000000 + k * 0x400000
def exchangeBase (k : Nat) : Nat := poolBase k + 0x3F0000
def quoinBase : Nat := 0x022000000000
def secureBase : Nat := 0x022800000000
def registerBase : Nat := 0x030000000000
def registerEnd : Nat := 0x0300012BA000
/-- The sag staging region and the treadle area above it (R543, R589). -/
def stagingBase : Nat := 0x022003700000
def treadleAreaBase : Nat := 0x022003F00000
def treadleAreaEnd : Nat := 0x022004000000

def regionOf (a : Nat) : Region :=
  if a < 4 * stratumSize then
    (if 0x0003FF000000 ≤ a % stratumSize then .descriptors (a / stratumSize) else .stratum (a / stratumSize))
  else if moduleBase ≤ a ∧ a < 0x018000000000 then .module
  else if localBase 0 ≤ a ∧ a < localBase 4608 then .locals ((a - localBase 0) / 0x40000)
  else if poolBase 0 ≤ a ∧ a < poolBase 72 then .pool ((a - poolBase 0) / 0x400000)
  else if quoinBase ≤ a ∧ a < quoinBase + 0x08000000 then .quoin ((a - quoinBase) / 0x04000000)
  else if secureBase ≤ a ∧ a < secureBase + 0x400000 then .secure
  else if registerBase ≤ a ∧ a < registerEnd then .registers
  else .unlisted

/-- The stratum channel of a device address: 512-byte granules rotate over the 64 channels of its die (R357). -/
def stratumChannel (a : Nat) : Nat :=
  let o := a % stratumSize
  field o 9 6 ^^^ field o 19 6

/-- The quoin of a module-memory address, and its channel within the quoin (R360). -/
def moduleQuoin (a : Nat) : Nat := field (a - moduleBase) 38 1
def quoinChannel (a : Nat) : Nat :=
  let o := a - moduleBase
  field o 9 5 ^^^ field o 18 5

/-- The module channel of a module-memory address (R360). -/
def moduleChannel (a : Nat) : Nat := 32 * moduleQuoin a + quoinChannel a

/-- The package of a module channel (R360). -/
def packageOf (chan : Nat) : Nat := chan / 4

/-- The variant, and the power of the die, back the address (R7–R9, R377). -/
def State.backed (s : State) (a : Nat) : Bool :=
  match regionOf a with
  | .stratum d | .descriptors d => s.diePresent d && (s.die d).awake
  | .module => s.hasB || moduleQuoin a == 0
  | .locals n => s.spindlePresent n
  | .pool k => s.skeinPresent k
  | .unlisted => false
  | _ => true

/-- Every 64 KiB page and both ends of a range are backed and lie in one region kind. -/
def State.backedRange (s : State) (a n : Nat) : Bool :=
  s.backed a && (n == 0 || s.backed (a + n - 1))

/-- `n` bytes from a device address; what nothing has written reads zero (R375). -/
def State.load (s : State) (a n : Nat) : Bytes := s.mem.range 0 a n

/-- Bytes put into memory, whatever snapshot is open. -/
def State.poke (s : State) (a : Nat) (bs : Bytes) : State :=
  { s with mem := s.mem.setRun 0 a bs,
           bad := s.bad.filter fun l => !(decide (a ≤ 64 * l) && decide (64 * l + 64 ≤ a + bs.length)),
           soft := s.soft.filter fun w => !(decide (a ≤ 8 * w) && decide (8 * w + 8 ≤ a + bs.length)) }

/-- Memory from `a` on cleared to zero for `n` bytes (R375). -/
def State.clearMem (s : State) (a n : Nat) : State :=
  { s with mem := s.mem.filter (fun kv => decide (kv.1 < a) || decide (a + n ≤ kv.1)),
           bad := s.bad.filter fun l => !(decide (a ≤ 64 * l) && decide (64 * l < a + n)),
           soft := s.soft.filter fun w => !(decide (a ≤ 8 * w) && decide (8 * w < a + n)) }

/-- Some byte of the range arrives with UNCORR (R358, R362). -/
def State.uncorr (s : State) (a n : Nat) : Bool :=
  s.bad.any fun l => decide (64 * l < a + n) && decide (a < 64 * l + 64)

/-- The 64 KiB pages of stratum or module memory that a range touches (R380). -/
def pagesOf (a n : Nat) : List Nat :=
  if n == 0 then [] else (List.range ((a + n - 1) / 65536 - a / 65536 + 1)).map (· + a / 65536)

/-- A page whose writes wait: PROTECTED, its copy being made, or STREAMING (R381). -/
def Snapshot.holds (x : Snapshot) (p : Nat) : Bool :=
  match x.pages.find p with
  | some .guarded | some (.copying _) | some .streaming => true
  | _ => false

/-- A page of a range that is being cleared (R376). -/
def State.clearsPage (s : State) (p : Nat) : Bool :=
  match regionOf (65536 * p) with
  | .stratum d | .descriptors d => (s.strat.get Stratum.reset d).clearing
  | .module => (s.lpd.get Lpd.reset (moduleQuoin (65536 * p))).clearing
  | _ => false

/-- A page whose writes wait, for the snapshot or for a clear. -/
def State.pageHeld (s : State) (p : Nat) : Bool := s.snap.holds p || s.clearsPage p

/-- Two ranges share a 64-byte line. -/
def sharesLine (a n b m : Nat) : Bool := n != 0 && m != 0 && decide (a / 64 ≤ (b + m - 1) / 64) && decide (b / 64 ≤ (a + n - 1) / 64)

/-- A waiting write stands before another: both wait on one page, or they write one line (R356, R382). -/
def WaitWrite.before (w v : WaitWrite) : Bool :=
  w.pages.any v.pages.contains || sharesLine w.addr w.data.length v.addr v.data.length

/-- Bytes read at `a` with the bytes `bs`, written at `b`, laid over them. -/
def overlay (a : Nat) (old : Bytes) (b : Nat) (bs : Bytes) : Bytes :=
  if b < a + old.length ∧ a < b + bs.length then
    (List.range old.length).map fun i => if b ≤ a + i ∧ a + i < b + bs.length then bs.getD (a + i - b) 0 else old.getD i 0
  else old

/-- Memory as it will read once a clear of it has ended and the writes that wait on it have landed: what a read that comes after those writes
delivers (R356, R376). -/
def State.loadNew (s : State) (a n : Nat) : Bytes :=
  s.snap.waits.foldl (fun bs w => overlay a bs w.addr w.data) (if (pagesOf a n).any s.clearsPage then zeros n else s.load a n)

/-! ### Writes that a waiting sampling request must not meet (R271) -/

/-- The bytes of a row of an F32 logit tile, by which R271 tells that a station has changed it. -/
def rowBytes (img : Bytes) (r : Nat) : Bytes :=
  let axis := leAt img 1 1 % 2
  let pay := (img.drop 0x1C0).toArray
  (List.range 64).flatMap fun c =>
    let q := payPos axis (64 * r + c)
    (List.range 4).map fun i => pay.getD (4 * q + i) 0

/-- The rows of a request whose entry or logits a write of `bs` at `a` changes. -/
def SampleReq.rowsHit (s : State) (q : SampleReq) (a : Nat) (bs : Bytes) : List Nat :=
  let rows := leAt q.desc 0x20 8
  let old := s.loadNew rows 512
  let new := overlay rows old a bs
  let tile (c : Nat) : List Nat :=
    let b := leAt q.desc 0 8 + c * leAt q.desc 8 4
    if a < b + 16832 ∧ b < a + bs.length then
      let old := s.loadNew b 16832
      let new := overlay b old a bs
      (List.range 64).filter fun r => rowBytes old r != rowBytes new r
    else []
  ((List.range 64).filter fun r => leAt old (8 * r) 8 != leAt new (8 * r) 8) ++ (List.range q.tiles.length).flatMap tile

def SampleReq.note (l : List Nat) (q : SampleReq) : SampleReq := { q with changed := (q.changed ++ l).eraseDups }

/-- What a write changes of the requests that have not completed. -/
def State.noteRows (s : State) (hit : SampleReq → List Nat) : State :=
  { s with smp := s.smp.mapV fun (u : Sampler) =>
      { u with queue := u.queue.map fun q => q.note (hit q), ending := u.ending.map fun q => q.note (hit q) } }

/-- A write that follows the snapshot page states: it waits on every page that is PROTECTED or STREAMING (R381, R382) or being cleared
(R376), and behind a waiting write to one of its lines (R356). -/
def State.store (s : State) (a : Nat) (bs : Bytes) (spindle : Option Nat) : State :=
  let s := s.noteRows fun q => q.rowsHit s a bs
  let w : WaitWrite := ⟨(pagesOf a bs.length).filter s.pageHeld, a, bs, spindle, false⟩
  if w.pages.isEmpty && !(s.snap.waits.any fun v => v.before w) then s.poke a bs
  else { s with snap := { s.snap with waits := s.snap.waits ++ [w] } }

/-- Writes to a range that wait on a snapshot page (R381). -/
def State.writesWait (s : State) (a n : Nat) : Bool :=
  s.snap.waits.any fun w => decide (w.addr < a + n) && decide (a < w.addr + w.data.length)

def State.load64 (s : State) (a : Nat) : W64 := BitVec.ofNat 64 (leNat (s.load a 8))
def State.load32 (s : State) (a : Nat) : W32 := BitVec.ofNat 32 (leNat (s.load a 4))

/-! ### Stamps, trace rings and triggers (R642–R650) -/

/-- The die whose stamp a page's unit writes: 0–3 C0–C3, 4 Q0, 5 Q1 (R50, R644). -/
def pageDie (page : Nat) : Nat :=
  let b := pageBlock page
  if b.1 == 0x10 then (if b.2 < 4 then 4 else 5)
  else if b.1 == 0x11 || b.1 == 0x12 || b.1 == 0x13 then 4 + b.2
  else if b.1 == 0x20 || b.1 == 0x21 || b.1 == 0x22 || b.1 == 0x23 then b.2
  else if b.1 == 0x30 || b.1 == 0x31 then dieOfSkein b.2
  else if b.1 == 0x32 then dieOfSpindle b.2
  else 4

def State.stamp (s : State) (die : Nat) : Nat := s.stamps.get 0 die

/-- The page whose ring a page's unit writes: the knot block of a die writes into the QUE ring (R645). -/
def ringPage (page : Nat) : Nat := if 34 ≤ page ∧ page < 38 then page - 4 else page

/-- Slots of a ring (R645). -/
def ringDepth (page : Nat) : Nat :=
  let b := (pageBlock page).1
  if b == 0x32 then 64 else if b == 0x21 then 4096 else if b == 0x11 then 16384 else if b == 0x06 then 65536 else 256

def xtDepth : Nat := 16777216

/-- POST_N of a ring (R648). -/
def State.postN (s : State) (depth : Nat) : Nat := max 1 (depth * min 100 s.trace.postPct / 100)

def TraceRec.slots (r : TraceRec) : Nat := if r.ext.isSome then 2 else 1
def slotsOf (l : List TraceRec) : Nat := l.foldl (fun n r => n + r.slots) 0

/-- The oldest records dropped until `need` slots are free; answers what is left and how many were dropped (R646). -/
def makeRoom (depth need : Nat) : List TraceRec → Nat → List TraceRec × Nat
  | [], d => ([], d)
  | r :: rest, d => if slotsOf (r :: rest) + need ≤ depth then (r :: rest, d) else makeRoom depth need rest (d + 1)

/-- A ring that writes nothing at present (R648, R649): frozen with all the others, by itself, or with POST_N slots of POST records. -/
def State.ringStopped (s : State) (depth : Nat) (g : Ring) : Bool :=
  s.trace.phase == .frozen || g.frozen || (s.trace.phase == .post && decide (s.postN depth ≤ g.post))

/-- Writes a record into a ring (R646, R648, R649). -/
def State.ringPut (s : State) (depth : Nat) (g : Ring) (r : TraceRec) : Ring :=
  let inPost := s.trace.phase == .post
  if s.ringStopped depth g then { g with frozenDrop := g.frozenDrop + 1 }
  else
    let r := if inPost && !bit r.flags 1 then { r with flags := r.flags + 2 } else r
    let (kept, lost) := makeRoom depth r.slots g.recs 0
    { g with recs := kept ++ [r], overwritten := g.overwritten + lost,
             post := if inPost then g.post + r.slots else g.post }

/-- A copy for the extended store (R653). Under STOP a copy that the store has no room for is dropped; the store is full then, and as soon
as its last slot is written. The Q0 stamp at which POST_N slots of POST copies stand in the store is that of its freeze (R654). -/
def State.xtPut (s : State) (r : TraceRec) : State :=
  let t := s.trace
  let stopped := s.ringStopped xtDepth t.xt
  let noRoom := t.xtStop && !stopped && (t.xtFull || decide (xtDepth < slotsOf t.xt.recs + r.slots))
  let s := if noRoom then s.count pgTRC 0x74 1
    else if stopped then { s with trace := { t with xt := s.ringPut xtDepth t.xt r } }
    else
      let g := s.ringPut xtDepth t.xt { r with flags := r.flags + 16 }
      { s with trace := { t with xt := g, xtNext := (t.xtNext + r.slots) % xtDepth,
                                 xtStamp := if s.ringStopped xtDepth g then s.stamp 4 else t.xtStamp } }
  let t := s.trace
  let full := t.xtStop && !t.xtFull && (noRoom || slotsOf t.xt.recs == xtDepth)
  if full then { s with trace := { t with xtFull := true, xtDue := true } } else s

/-- A record written by a page's unit into its ring and, where selected, into the extended store (R642–R653); XT_FULL is raised later. -/
def State.note (s : State) (page code flags arg : Nat) (ext : Option Bytes) : State :=
  let b := pageBlock page
  let r : TraceRec :=
    ⟨s.stamp (pageDie page), b.1, flags + (if ext.isSome then 8 else 0), b.2, code % 2 ^ 16, arg % 2 ^ 32, ext⟩
  let p := ringPage page
  let s := s.setRing p (s.ringPut (ringDepth p) (s.ring p) r)
  if s.isX && s.trace.xtEn && bit s.trace.xtBlk b.1 then s.xtPut r else s

/-- Source bits of a trigger (R647); a DUMP's source reads 0xFF. -/
def trgHost : Nat := 1
def trgDump : Nat := 0xFF

/-- TRIGGER mark of a record. -/
def trgFlag (captured : Bool) : Nat := if captured then 4 else 0

/-- The 16 bytes of a record's first slot (R642). -/
def TraceRec.bytes (r : TraceRec) : Bytes :=
  leBytes 6 r.stamp ++ leBytes 1 r.block ++ leBytes 1 r.flags ++ leBytes 2 r.inst ++ leBytes 2 r.code ++ leBytes 4 r.arg

/-! ### Messages to a session's peer (R473–R482) -/

/-- The engine of a session: MRN0 for plane A and the management port, MRN1 for plane B (R469). -/
def Session.engine (x : Session) : Nat := if x.plane == 1 then 1 else 0

/-- The 72 bytes of a header (R472, R473). -/
def mrnHeader (version flags typ session epoch seq ack : Nat) (sack : BitVec 256) (cmd : W64) (len ce reserved : Nat) : Bytes :=
  leBytes 1 version ++ leBytes 1 flags ++ beBytes 2 typ ++ beBytes 4 session ++ beBytes 4 epoch ++ beBytes 6 seq ++ beBytes 6 ack
    ++ leBytes 32 sack.toNat ++ beBytes 8 cmd.toNat ++ beBytes 2 len ++ beBytes 2 ce ++ beBytes 4 reserved

/-- The tag over a header and payload (R475). -/
def mrnTag (key bs : Bytes) : Bytes := kmac256 key bs 16 (ascii "MRN-TAG")

/-- MH_SACK of a session's receive side (R473). -/
def Session.sackBits (x : Session) : BitVec 256 :=
  BitVec.ofNat 256 (x.held.foldl (fun n kv => if x.rxAck + 2 ≤ kv.1 then n + 2 ^ (kv.1 - x.rxAck - 2) else n) 0)

/-- The MAC address of a port: data port n has the fused base + n, the management port + 8 (R438). -/
def State.portMac (s : State) (p : Nat) : Nat := (s.trust.addrBase + p) % 2 ^ 48

/-- The IPv6 link-local address of a MAC address (R606). -/
def linkLocal (mac : Nat) : BitVec 128 :=
  BitVec.ofNat 128 (0xFE80 * 2 ^ 112 + (mac / 2 ^ 24 ^^^ 0x020000) * 2 ^ 40 + 0xFFFE * 2 ^ 24 + mac % 2 ^ 24)

/-- A port's IPv6 address: the one the host set, or in RECOVERY_LISTEN the link-local one of port 0 and the management port (R439, R606). -/
def State.portIp6 (s : State) (p : Nat) : BitVec 128 :=
  if s.trust.recovery && (p == 0 || p == 8) then linkLocal (s.portMac p) else (s.port p).ipv6

/-- The port runs the protocol: its address is not zero (R439). The management port's addresses stand in no register (log entry 117). -/
def State.speaks (s : State) (p : Nat) (v6 : Bool) : Bool :=
  p == 8 || (if v6 then s.portIp6 p != 0 else (s.port p).ipv4 != 0)

def Port.tagEn (p : Port) : Bool := bit p.vlan.toNat 31
def Port.vid (p : Port) : Nat := field p.vlan.toNat 16 12
/-- The priority code point of a session kind (R440, R466). -/
def Port.pcp (p : Port) (kind : Nat) : Nat := field p.vlan.toNat ([12, 0, 8, 4].getD kind 12) 3

/-- An address is an IPv4 one, mapped (R503, R543). -/
def mapped4 (a : BitVec 128) : Bool := a.toNat / 2 ^ 32 == 0xFFFF

/-- The port that a plane's next packet to an address leaves on: the next one in the rotation that is up and runs the address's protocol
(R439, R445). Transmit queues drain in time, which the model leaves out, so none is too full (log entry 98). -/
def State.nextPort (s : State) (plane : Nat) (v6 : Bool) : Option Nat :=
  if plane == 2 then some 8 else
  let last := s.mrn.rot.get 3 plane
  ((List.range 4).map fun i => 4 * plane + (last + 1 + i) % 4).find? fun p =>
    (s.port p).linkUp && (s.port p).inSpray && s.speaks p v6

/-- The solicited-node multicast MAC of an IPv6 address, to which a neighbour solicitation goes (PRESUMED, log entry 117). -/
def solicited (a : BitVec 128) : Nat := 0x3333FF000000 + a.toNat % 2 ^ 24

/-- The IP address that a port sends from (R439, R503). -/
def State.portIp (s : State) (p : Nat) (v6 : Bool) : BitVec 128 :=
  if v6 then s.portIp6 p else BitVec.ofNat 128 (0xFFFF * 2 ^ 32 + (s.port p).ipv4.toNat)

/-- A frame that a data port sends is counted: TX_FRAMES, TX_BYTES, and TX_ECT where it carries ECT(0) (R440, R466). The management port
has no page. -/
def State.countTx (s : State) (p len : Nat) (ect : Bool) : State :=
  if p == 8 then s else ((s.count (pgETH p) 0 1).count (pgETH p) 2 len).count (pgETH p) 10 (b2n ect)

/-- A port sends a frame of itself (R439–R441). -/
def State.sendPlainFrame (s : State) (use_ : PlainUse) (p dstMac : Nat) (v6 : Bool) (dstIp : BitVec 128) (len : Nat) : State :=
  let x := s.port p
  let f : PlainFrame := { use_ := use_, port := p, srcMac := s.portMac p, dstMac := dstMac, vid := if x.tagEn then some x.vid else none,
                          ipv6 := v6, srcIp := s.portIp p v6, dstIp := dstIp, length := len }
  State.countTx { s with mrn := { s.mrn with plain := s.mrn.plain ++ [f] } } p len use_.isIp

/-- A gateway's MAC address that is not known is asked for: an ARP request or a neighbour solicitation leaves before the packet (R439). -/
def State.resolve (s : State) (p : Nat) (v6 : Bool) : State :=
  let x := s.port p
  let known := if v6 then x.gw6 == 0 || x.gwMac6.isSome else x.gw4 == 0 || x.gwMac4.isSome
  if known || p == 8 then s
  else if v6 then s.sendPlainFrame .neighbourSolicitation p (solicited x.gw6) true x.gw6 (90 + 4 * b2n x.tagEn)
  else s.sendPlainFrame .arpRequest p (2 ^ 48 - 1) false (BitVec.ofNat 128 (0xFFFF * 2 ^ 32 + x.gw4.toNat)) 64

/-- The headers of a packet of a session kind from a port to an address (R438–R440, R445). -/
def State.frameHead (s : State) (p kind seq dst : Nat) (addr : BitVec 128) : FrameHead :=
  let x := s.port p
  let v6 := !(mapped4 addr)
  { port := p, srcMac := s.portMac p, dstMac := if v6 then x.gwMac6 else x.gwMac4,
    tag := if x.tagEn then some (x.pcp kind, x.vid) else none, ipv6 := v6,
    srcIp := s.portIp p v6, dstIp := addr, peerPort := p % 4,
    srcPort := 0xC000 + seq % 1024, dstPort := if dst == 0 then x.udpPort.toNat else dst }

/-- A data port counts a frame of `n` payload bytes that it sends, and the rotation of its plane moves to it (R445, R466). -/
def State.countSent (s : State) (plane p : Nat) (v6 : Bool) (n : Nat) : State :=
  let len := 18 + 4 * b2n (s.port p).tagEn + (if v6 then 40 else 20) + 8 + n
  let s := s.resolve p v6
  let s := { s with mrn := { s.mrn with rot := s.mrn.rot.set 3 plane (p % 4) } }
  s.countTx p len true

/-- A frame of `n` payload bytes leaves for an address, on a port of the plane, and is counted (R439, R440, R445, R466); no frame leaves
where no port of the plane is up. -/
def State.sendFrame (s : State) (plane kind seq dst : Nat) (addr : BitVec 128) (n : Nat) : State × Option FrameHead :=
  match s.nextPort plane (!(mapped4 addr)) with
  | none => (s, none)
  | some p => (if plane == 2 then s else s.countSent plane p (!(mapped4 addr)) n, some (s.frameHead p kind seq dst addr))

/-- The UDP port of a session's peer: the one that BULK_CREATE named for the session's operation; 0 for the Miornal port (R503). -/
def State.peerUdp (s : State) (x : Session) : Nat :=
  if x.kind == 2 then ((s.mrn.ops.find? fun o => o.id == x.opId).map (·.peerPort)).getD 0 else 0

/-- A CONTROL session whose keys have been erased: every packet after OPEN_OK carries a tag (R475), so none can leave (DEDUCED, log entry
127). -/
def Session.muted (x : Session) : Bool := x.kind == 0 && x.epoch != 0 && x.keyTx.isEmpty

/-- A packet of a session leaves, with the acknowledgement that it carries (R473–R479). -/
def State.emit (s : State) (i typ seq : Nat) (m : Msg) (retx : Bool) : State :=
  let x := s.session i
  if x.muted then s else
  let ack := decide (1 ≤ x.epoch) && x.state != .RS
  let tagged := x.kind == 0 && !x.keyTx.isEmpty && typ != 0x0004
  let flags := b2n ack + 2 * b2n retx + 4 * b2n tagged + 8 * b2n (typ == 0x0007)
  let sack := if ack then x.sackBits else 0
  let ce := if ack then min 0xFFFF x.ceCount else 0
  let a := if ack then x.rxAck else 0
  let hdr := mrnHeader 1 flags typ x.peerId x.epoch seq a sack m.cmd m.payload.length ce 0
  let tag := if tagged then mrnTag x.keyTx (hdr ++ m.payload) else []
  let s := if ack then s.setSession i { x with unackedRx := 0, ceCount := 0 } else s
  let (s, frame) := s.sendFrame x.plane x.kind seq (s.peerUdp x) x.addr (72 + m.payload.length + tag.length)
  let p : Sent := { plane := x.plane, frame := frame, addr := x.addr, flags := flags, typ := typ, session := x.peerId, epoch := x.epoch,
                    seq := seq, ack := a, sack := sack, cmd := m.cmd, ce := ce, payload := m.payload, tag := tag }
  State.count { s with mrn := { s.mrn with out := s.mrn.out ++ [p] } } (pgMRN x.engine) 0 1

/-- Sends an unsequenced message on a session. -/
def State.sendPlain (s : State) (i typ : Nat) (payload : Bytes) : State := s.emit i typ 0 ⟨typ, 0, payload⟩ false

/-- The highest sequence number up to which everything sent is acknowledged. -/
def Session.acked (x : Session) : Nat :=
  match x.out with
  | [] => x.txNext - 1
  | m :: _ => m.seq - 1

/-- Bytes sent and not acknowledged (R444, R480). -/
def Session.inFlight (x : Session) : Nat :=
  (x.out.filter fun m => !m.sacked).foldl (fun n m => n + 72 + m.msg.payload.length + (if x.kind == 0 then 16 else 0)) 0

/-- PKT_TX and PKT_RX records (R658). -/
def State.pktRecord (s : State) (i code peer seq typ epoch : Nat) (retx : Bool) (port : Nat) : State :=
  let x := s.session i
  if x.kind == 2 && !s.trace.mrnBulk then s
  else s.note (pgMRN x.engine) code 0 peer
    (some (leBytes 6 seq ++ leBytes 2 typ ++ leBytes 4 epoch ++ leBytes 1 (b2n retx) ++ leBytes 1 port ++ zeros 2))

/-- The port that the last packet left on. -/
def State.lastPort (s : State) : Option Nat := (s.mrn.out.getLast?).bind fun q => q.frame.map (·.port)

/-- A sequenced message leaves with the next sequence number. -/
def State.transmit (s : State) (i : Nat) (m : Msg) : State :=
  let x := s.session i
  let s := s.setSession i { x with txNext := x.txNext + 1, out := x.out ++ [⟨x.txNext, m, false, false, 0⟩] }
  let s := s.emit i m.typ x.txNext m false
  if x.muted then s else
  match s.lastPort with
  | some p => s.pktRecord i 0x0110 x.peerId x.txNext m.typ x.epoch false p
  | none => s

/-- A session can send: OPEN or SUSPECT, inside the 257-packet window and the congestion window (R480). -/
def Session.maySend (x : Session) (len : Nat) : Bool :=
  (x.state == .OP || x.state == .SU || x.state == .DR) && decide (x.txNext ≤ x.acked + 257)
    && decide (x.inFlight + 72 + len + (if x.kind == 0 then 16 else 0) ≤ x.window) && decide (x.txNext ≤ 2 ^ 48 - 258)

/-- A sequenced message leaves, or is queued until the window or the session lets it go. -/
def State.post (s : State) (i : Nat) (m : Msg) : State :=
  let x := s.session i
  if x.queued.isEmpty && x.maySend m.payload.length then s.transmit i m
  else s.setSession i { x with queued := x.queued ++ [m] }

/-- Queued messages leave as far as the windows let them; `fuel` bounds them by their number. -/
def State.flushQueued (i : Nat) : Nat → State → State
  | 0, s => s
  | fuel + 1, s =>
    let x := s.session i
    match x.queued with
    | [] => s
    | m :: rest =>
      if x.maySend m.payload.length then
        State.flushQueued i fuel ((s.setSession i { x with queued := rest }).transmit i m)
      else s

/-- A session that carries messages of its kind at present. -/
def Session.live (x : Session) : Bool := x.state == .OP || x.state == .SU || x.state == .RS

/-- The slots of live sessions of a kind, in slot order. -/
def State.liveSessions (s : State) (kind : Nat) : List Nat :=
  s.mrn.sessions.keysWhere fun x => x.kind == kind && x.live

/-! ### Events (R631, R632) -/

/-- Sends EVENT for a raise to the subscribed CONTROL sessions, 1,000 each a second (R500, R631, R632). -/
def State.sendEvents (s : State) (page b : Nat) (r : Bytes) : State :=
  (s.liveSessions 0).foldl (fun s i =>
    let x := s.session i
    if bit (x.subs.get 0 page).toNat b then
      if decide (s.evtSent.get 0 i < 1000) then
        State.post { s with evtSent := s.evtSent.set 0 i (s.evtSent.get 0 i + 1) } i
          ⟨0x0111, 0, leBytes 4 page ++ leBytes 1 b ++ zeros 3 ++ r⟩
      else s.count pgMOD 0x5C 1
    else s) s

/-- A raise without the XT_FULL that its record may cause. -/
def State.raiseN (s : State) (page b flags arg : Nat) (ext : Option Bytes) : State :=
  let h := s.page page
  let s := s.setPage page { h with pend := h.pend ||| BitVec.ofNat 32 (2 ^ b) }
  let blk := pageBlock page
  let r : TraceRec :=
    ⟨s.stamp (pageDie page), blk.1, flags + (if ext.isSome then 8 else 0), blk.2, b, arg % 2 ^ 32, none⟩
  let s := s.note page b flags arg ext
  if bit h.mask.toNat b then s else s.sendEvents page b r.bytes

/-- XT_FULL is raised once the store has filled (R653). -/
def State.xtEvent (s : State) : State :=
  if s.trace.xtDue then State.raiseN { s with trace := { s.trace with xtDue := false } } pgTRC 3 0 0 none else s

/-- A raise but for what its EVENTs do to a session that has come to the end of its sequence numbers. -/
def State.signal (s : State) (page b flags arg : Nat) (ext : Option Bytes) : State :=
  (s.raiseN page b flags arg ext).xtEvent

/-! ### The session table (R488–R492) -/

/-- The cell of the table in force for an event and a state. -/
def State.cell (s : State) (e : Nat) (st : SessState) : Cell :=
  match s.mrn.table with
  | none => defaultCell e st
  | some t => t.cell e st

/-- A7: the epoch is taken if it is higher, both sequences restart at 1, everything unacknowledged is queued again in its order, and the
receive window is empty. -/
def Session.adopt (x : Session) (epoch : Nat) : Session :=
  { x with epoch := max x.epoch epoch, txNext := 1, queued := x.out.map (·.msg) ++ x.queued, out := [], rxAck := 0, held := [],
           unackedRx := 0, deadRunning := x.deadRunning && x.state == .DR }

/-- A12: the slot is free, and a session that takes it has sent no EVENT yet (R632). -/
def State.release (s : State) (i : Nat) : State := State.setSession { s with evtSent := s.evtSent.del i } i Session.fresh

/-- A6: the epoch rises and RESYNC leaves. -/
def State.resyncOut (s : State) (i : Nat) : State :=
  let x := { s.session i with epoch := ((s.session i).epoch + 1) % 2 ^ 32 }
  let e := pgMRN x.engine
  let s := ((s.setSession i x).sendPlain i 0x0008 (leBytes 4 x.epoch)).count e 13 1
  s.signal e 3 0 x.id none

/-- SESSION_FAILED is counted, raised and reported, with the event that is its cause (R489, R513). -/
def State.countFailed (s : State) (e i flags : Nat) : State :=
  let x := s.session i
  let s := { s with mrn := { s.mrn with failures := s.mrn.failures ++ [(x.id, x.kind, e)] } }
  (s.count (pgMRN x.engine) 15 1).signal (pgMRN x.engine) 0 flags x.id none

/-- What the actions of an event do that depend on what came with it: A1, A2, A3 and A4, the epoch of A7, and A11 by the event. -/
structure Acts where
  answer : State → Nat → State
  establish : State → Nat → State
  receive : State → Nat → State
  again : State → Nat → State
  epoch : Nat
  fail : Nat → State → Nat → State

/-- An event that brings nothing with it. -/
def Acts.plain (fail : Nat → State → Nat → State) : Acts :=
  ⟨fun s _ => s, fun s _ => s, fun s _ => s, fun s _ => s, 0, fail⟩

/-- An action of R489, for event `e` of slot `i`. -/
def State.act (h : Acts) (e i : Nat) (s : State) (a : Nat) : State :=
  match a with
  | 0 => s.sendPlain i 0x0001 (s.session i).hello
  | 1 => h.answer s i
  | 2 => h.establish s i
  | 3 => h.receive s i
  | 4 => h.again s i
  | 5 => (s.setSession i { s.session i with deadRunning := true }).sendPlain i 0x0007 []
  | 6 => s.resyncOut i
  | 7 => s.setSession i ((s.session i).adopt h.epoch)
  | 8 => s.sendPlain i 0x0009 (leBytes 4 (s.session i).epoch)
  | 9 => s.sendPlain i 0x000A (zeros 2)
  | 10 => s.sendPlain i 0x000B []
  | 11 => h.fail e s i
  | 12 => s.release i
  | _ => s

/-- An event of a session slot (R488): the next state, then the cell's actions. -/
def State.fire (h : Acts) (e : Nat) (s : State) (i : Nat) : State :=
  let x := s.session i
  let c := s.cell e x.state
  let s := if c.next == .SU && x.state != .SU then s.count (pgMRN x.engine) 14 1 else s
  c.acts.foldl (State.act h e i) (s.setSession i { x with state := c.next })

/-- The next sequence number to send would exceed the last one (R491). -/
def Session.spent (x : Session) : Bool := decide (2 ^ 48 - 258 < x.txNext)

/-- E10 from the module's own side, which reports a failure to the session's users in the model's records alone. -/
def State.ownResync (s : State) (i : Nat) : State := s.fire (Acts.plain fun e s i => s.countFailed e i 0) 10 i

/-- A session that sends, and has no sequence number left. -/
def Session.outOfNumbers (x : Session) : Bool := x.spent && (x.state == .OP || x.state == .SU || x.state == .DR)

/-- Each session that has no sequence number left takes E10 (R491); `fuel` bounds them by their number. -/
def State.resyncSpent : Nat → State → State
  | 0, s => s
  | fuel + 1, s =>
    match s.mrn.sessions.find? fun kv => kv.2.outOfNumbers with
    | some kv => State.resyncSpent fuel (s.ownResync kv.1)
    | none => s

/-- A unit record (R642). -/
def State.record (s : State) (page code flags arg : Nat) (ext : Option Bytes) : State :=
  State.resyncSpent s.mrn.sessions.length (s.note page code flags arg ext).xtEvent

/-- Raises event `b` of a page with its argument; `flags` holds FORCED or TRIGGER marks, `ext` the second slot of an extended record (R631,
R643). An EVENT may take the last sequence number of a session (R491). -/
def State.raiseX (s : State) (page b flags arg : Nat) (ext : Option Bytes) : State :=
  State.resyncSpent s.mrn.sessions.length (s.signal page b flags arg ext)

def State.raiseF (s : State) (page b flags arg : Nat) : State := s.raiseX page b flags arg none

def State.raise (s : State) (page b arg : Nat) : State := s.raiseF page b 0 arg

/-- A trigger whose source writes no record of its own: the host's write, a stalled BULK operation, a DUMP. -/
def trgSilent (src : Nat) : Bool := src == trgHost || src == 6 || src == trgDump

/-- A trigger (R647, R648, R650): captured when every ring is ARMED, else counted as lost. The answer says whether it was
captured, for the TRIGGER mark of its source's record; the mark of a source without a record of its own stands on the TRIGGERED record
(DESIGN CHOICE, log entry 119). -/
def State.trigger (s : State) (src : Nat) : State × Bool :=
  if src != trgHost && src != trgDump && !(bit s.trace.trigMask src) then (s, false)
  else if s.trace.phase == .armed then
    (State.raiseF { s with trace := { s.trace with phase := .post, lastSrc := src, trigStamp := s.stamp 4 } } pgTRC 0 (trgFlag (trgSilent src)) src, true)
  else
    (State.count { s with trace := { s.trace with lostSrc := src, lostStamp := s.stamp 4 / 256 % 2 ^ 24 } } pgTRC 0x5C 1, false)

/-- Sends a sequenced message, or queues it; at the end of the sequence numbers the session takes E10 (R480, R491). -/
def State.send (s : State) (i : Nat) (m : Msg) : State :=
  let s := s.post i m
  if (s.session i).spent then s.ownResync i else s

/-! ### Positions and reports to the manager (R533, R545) -/

/-- The ranks that membership entries hold, each once (R543). -/
def ranksOf (l : List Member) : List Nat := ((l.filter fun m => !m.spare).map (·.rank)).eraseDups

def State.jobPos (s : State) : Nat := (s.trd.tpos + 2 ^ 64 - s.trd.jobBase % 2 ^ 64) % 2 ^ 64

/-- The worker's MEMBERSHIP session to its manager (R542). -/
def State.mgrSession (s : State) : Option Nat :=
  (s.mrn.sessions.find? fun kv => kv.2.kind == 1 && kv.2.opener && kv.2.live).map (·.1)

/-- The payload of a STATUS (R545). -/
def statusBytes (code : Nat) (err : W16) (arg pos : Nat) : Bytes :=
  leBytes 2 code ++ zeros 2 ++ leBytes 2 err.toNat ++ zeros 2 ++ leBytes 8 arg ++ leBytes 8 pos

/-- Sends a STATUS to the manager (R545). -/
def State.sendStatusAt (s : State) (code : Nat) (err : W16) (arg pos : Nat) : State :=
  match s.mgrSession with
  | some i => s.send i ⟨0x0204, 0, statusBytes code err arg pos⟩
  | none => s

def State.sendStatus (s : State) (code : Nat) (err : W16) (arg : Nat) : State := s.sendStatusAt code err arg s.jobPos

/-! ### Stops (R284, R329) -/

/-- A spindle as the stop of its job leaves it: work discarded, banks back to CORE, also those that an abandoned prologue copy held
(R284, R315, R350). -/
def Spindle.halt (x : Spindle) : Spindle :=
  match x.run with
  | .idle | .ended | .stopped => { x with banks := [] }
  | _ => { x with run := .stopped, wait := .none, passes := [], own := none, asm := [], spillHeld := 0, banks := [] }

/-- A station as the stop of its job leaves it: every sliver that has not ended is STOPPED, and its copies are abandoned (R326, R329). -/
def Station.halt (t : Station) : Station :=
  { t with slivers := (List.range t.img.spindles.length).map fun i =>
             (i, if t.slivers.find i == some .ended then .ended else .stopped),
           copies := [] }

/-- The job runs or may start: LOADED or RESTORE_WAIT. -/
def State.jobLive (s : State) : Bool := s.job.state == .loaded || s.job.state == .restoreWait

/-- Stops the job (R329): the record, every station, the waits, JOB_STOPPED to subscribers and to the manager, and the
trace trigger of source 4 (R647). A job that has stopped already keeps its record. `mark` tells that the stop's own cause
triggered the rings. -/
def State.stopJobM (s : State) (r : StopRec) (mark : Bool) : State :=
  if !s.jobLive then s else
  let (s, cap) := s.trigger 4
  let s := { s with
    job := { s.job with state := .stopped, stop := r, runs := s.job.runs.mapV CollRun.halt, gathers := [], unsent := [] },
    sp := s.sp.mapV Spindle.halt,
    sk := s.sk.mapV fun (k : Skein) => { k with spillWait := [], spillUsed := [], quotaUsed := [], masks := [] },
    queues := s.queues.mapV fun (q : Queue) => { q with waiting := [] },
    waiters := [],
    transit := [],
    stations := s.stations.mapV Station.halt }
  let s := s.raiseF pgMOD 1 (trgFlag (cap || mark)) (r.code.toNat * 2 ^ 16 + r.station)
  s.sendStatus 3 r.code 0

def State.stopJob (s : State) (r : StopRec) : State := s.stopJobM r false

/-- A stop of the job that no spindle met, over a tile where one failed its checks (R88, R367). -/
def State.stopUnitTile (s : State) (f : TileFail) (station : Nat) : State :=
  s.stopJob { StopRec.none with code := f.code, station := station, tensor := f.tensor, row := f.row, col := f.col, index := f.index,
                                crc := f.crc }

def State.stopUnit (s : State) (code : W16) (station : Nat) : State := s.stopUnitTile (TileFail.ofCode code) station

/-- A spindle meets a stop at its instruction: error latched with the PC, STOP raised, job stopped (R284, R322, R329).
The record names the tile and the block or element that `f` names, and of a checksum what R367 lists (R88, R238).
`flags` marks the record of a stop whose cause triggered the trace rings. -/
def State.stopFlag (s : State) (n : Nat) (flags : Nat) (f : TileFail) : State :=
  let x := s.spindle n
  let s := s.latchErr (pgSPD n) f.code (BitVec.ofNat 32 x.pc)
  let s := s.raiseF (pgSPD n) 0 flags x.pc
  s.stopJob { code := f.code, station := x.station, spindle := n, sliver := x.sliver, pc := x.pc, tensor := f.tensor,
              row := f.row, col := f.col, index := f.index, crc := f.crc }

/-- A wait reaches the station's KNOT_TIMEOUT: the trace trigger of source 3, then the stop (R343, R647). -/
def State.timeoutSp (s : State) (n : Nat) (code : W16) : State :=
  let (s, cap) := s.trigger 3
  s.stopFlag n (trgFlag cap) (TileFail.ofCode code)

/-- A stop for a tile that fails a check: the record names the tile and what failed (R88, R367). -/
def State.stopTile (s : State) (n : Nat) (f : TileFail) : State := s.stopFlag n 0 f

def State.stopSp (s : State) (n : Nat) (code : W16) : State := s.stopTile n (TileFail.ofCode code)

end Sys2Proof.Machine
end

