-- ==== Sys2Proof/Machine/Issue.lean ====
section
/-!
DEFINITION. How a spindle issues: its registers, its local memory and bank admission, the fetch of the next instruction
word, retirement and waits (R276–R284, R288, R291, R312–R315, R694).
-/
namespace Sys2Proof.Machine

/-! ### Registers (R174, R276) -/

/-- The scalar register `r`; s0 reads zero, and s16–s31 are the second bank in deferred mode. -/
def Spindle.s (x : Spindle) (r : Reg) : W64 :=
  if r == 0 then 0 else if x.deferred && decide (16 ≤ r.toNat) then x.regs.s2.get 0 r.toNat else x.regs.s.get 0 r.toNat

def Spindle.setS (x : Spindle) (r : Reg) (v : W64) : Spindle :=
  if r == 0 then x
  else if x.deferred && decide (16 ≤ r.toNat) then { x with regs := { x.regs with s2 := x.regs.s2.set 0 r.toNat v } }
  else { x with regs := { x.regs with s := x.regs.s.set 0 r.toNat v } }

/-- The 32 lanes of vector register `r`. -/
def Spindle.v (x : Spindle) (r : Reg) : List W32 :=
  (if x.deferred && decide (16 ≤ r.toNat) then x.regs.v2 else x.regs.v).range 0 (32 * r.toNat) 32

def Spindle.setV (x : Spindle) (r : Reg) (l : List W32) : Spindle :=
  if x.deferred && decide (16 ≤ r.toNat) then { x with regs := { x.regs with v2 := x.regs.v2.setRun 0 (32 * r.toNat) l } }
  else { x with regs := { x.regs with v := x.regs.v.setRun 0 (32 * r.toNat) l } }

def Spindle.m (x : Spindle) (r : MReg) : W32 :=
  if x.deferred && decide (4 ≤ r.toNat) then x.regs.m2.get 0 r.toNat else x.regs.m.get 0 r.toNat

def Spindle.setM (x : Spindle) (r : MReg) (v : W32) : Spindle :=
  if x.deferred && decide (4 ≤ r.toNat) then { x with regs := { x.regs with m2 := x.regs.m2.set 0 r.toNat v } }
  else { x with regs := { x.regs with m := x.regs.m.set 0 r.toNat v } }

def Spindle.plane (x : Spindle) : Plane → PlaneSt
  | .a0 => x.a0
  | .a1 => x.a1

def Spindle.setPlane (x : Spindle) (p : Plane) (v : PlaneSt) : Spindle :=
  match p with
  | .a0 => { x with a0 := v }
  | .a1 => { x with a1 := v }

/-! ### Fetch and retirement (R280, R281, R322) -/

/-- The image of the station that a spindle runs. -/
def State.imageOf (s : State) (n : Nat) : Option StationImage := (s.station (s.spindle n).station).map (·.img)

/-- The instruction word at the spindle's PC, or the code of the stop that the fetch meets (R280). -/
def State.fetch (s : State) (n : Nat) : Except W16 W64 :=
  let x := s.spindle n
  match s.imageOf n with
  | none => .error 0x0305
  | some img =>
    if img.codeLen ≤ x.pc then .error 0x0305
    else if x.pc % 8 != 0 then .error 0x0306
    else .ok (s.load64 (poolBase (skeinOf n) + img.codeBase + x.pc))

/-- A spindle issues while its job runs and is not paused, in RUN or in a wait whose instruction tries again. -/
def State.mayIssue (s : State) (n : Nat) : Bool :=
  let x := s.spindle n
  s.job.state == .loaded && !s.paused && x.own.isNone &&
    (match x.run with
     | .run => true
     | .waitQueue | .waitKnot | .waitTransfer | .waitTracker | .waitArray =>
       (match x.wait with
        | .pull _ | .push _ | .quota | .tracker _ | .spill | .array | .unit | .take _ => true
        | _ => false)
     | _ => false)

/-- Issues the spindle's next instruction if `f` accepts it: a bad fetch or an invalid word stops the station (R280, R288),
and an instruction of another row, or a spindle that cannot issue, leaves the state as it is. -/
def State.issue (s : State) (n : Nat) (f : SpInstr → Option (State → State)) : State :=
  if !s.mayIssue n then s else
  match s.fetch n with
  | .error code => s.stopSp n code
  | .ok w =>
    match decodeSp w with
    | none => s.stopSp n 0x020F
    | some i =>
      match f i with
      | some g => g s
      | none => s

/-- The instruction retires and the PC becomes `pc`, in its 32 bits (R276). -/
def State.retireTo (s : State) (n pc : Nat) : State :=
  let x := s.spindle n
  (s.setSpindle n { x with pc := pc % 2 ^ 32, run := .run, wait := .none }).count (pgSPD n) 0 1

/-- The instruction retires and the next one follows. -/
def State.retire (s : State) (n : Nat) : State := s.retireTo n ((s.spindle n).pc + 8)

/-- The instruction waits; the PC still names it. -/
def State.await (s : State) (n : Nat) (r : RunState) (w : Wait) : State :=
  s.setSpindle n { s.spindle n with run := r, wait := w }

/-- The instruction writes a scalar register and retires. -/
def State.retireS (s : State) (n : Nat) (d : Reg) (v : W64) : State :=
  (s.setSpindle n ((s.spindle n).setS d v)).retire n

/-! ### Local memory and banks (R291, R312–R315, R694) -/

/-- A local address from a register and an offset: both the register and the sum are 18-bit, and the sum is aligned. -/
def localAddr (a : W64) (off : Int) (align : Nat) : Except W16 Nat :=
  let sum := unsignedOf 64 ((a.toNat : Int) + off)
  if 2 ^ 18 ≤ a.toNat ∨ 2 ^ 18 ≤ sum then .error 0x0305
  else if sum % align != 0 then .error 0x0306
  else .ok sum

def Spindle.bank (x : Spindle) (b : Nat) : Bank := x.banks.get Bank.core b
def Spindle.setBank (x : Spindle) (b : Nat) (v : Bank) : Spindle := { x with banks := x.banks.set Bank.core b v }

/-- The banks that a range of local addresses touches. -/
def banksOf (a n : Nat) : List Nat :=
  if n == 0 then [] else (List.range ((a + n - 1) / 0x4000 - a / 0x4000 + 1)).map (· + a / 0x4000)

/-- Every bank of the range is owned by `o` (R313). -/
def Spindle.owns (x : Spindle) (o : Owner) (a n : Nat) : Bool := (banksOf a n).all fun b => (x.bank b).owner == o

/-- A foreign read is admitted to a shared CORE bank or a bank of the unit (R313), and to none that a BANK.TAKE waits for (R315). -/
def Spindle.foreignRead (x : Spindle) (o : Owner) (a n : Nat) : Bool :=
  (banksOf a n).all fun b =>
    !(x.bank b).pending && ((x.bank b).owner == o || ((x.bank b).owner == .core && (x.bank b).share))

/-- A foreign write or atomic is admitted to a bank of the unit that no BANK.TAKE waits for (R313, R315). -/
def Spindle.foreignWrite (x : Spindle) (o : Owner) (a n : Nat) : Bool :=
  (banksOf a n).all fun b => !(x.bank b).pending && (x.bank b).owner == o

/-- An own write by a unit acting for the spindle is admitted to CORE banks and to the unit's own (R313, R694). -/
def Spindle.ownWrite (x : Spindle) (o : Owner) (a n : Nat) : Bool :=
  (banksOf a n).all fun b => (x.bank b).owner == .core || (x.bank b).owner == o

/-- Reads of the spindle's own local memory are always admitted (R313). -/
def State.localRead (s : State) (n a len : Nat) : Bytes := s.load (localBase n + a) len

/-- A write of local memory changes the descriptor of a request that has not completed, and so touches every row (R271). -/
def SampleReq.descHit (s : State) (q : SampleReq) (n a : Nat) (bs : Bytes) : List Nat :=
  let old := s.load (localBase n + q.at_) 64
  if q.spindle == n && overlay q.at_ old a bs != old then List.range 64 else []

/-- Bytes put into a spindle's local memory; verified images that they touch lose their mark (R102). -/
def State.localPut (s : State) (n a : Nat) (bs : Bytes) : State :=
  let s := s.noteRows fun q => q.descHit s n a bs
  let x := s.spindle n
  let keep := x.verified.filter fun v => !(decide (v.1 < a + bs.length) && decide (a < v.1 + v.2))
  (s.setSpindle n { x with verified := keep }).poke (localBase n + a) bs

/-- A write by the spindle core, refused unless every bank is CORE (R313, R314). -/
def State.coreWrite (s : State) (n a : Nat) (bs : Bytes) : Except W16 State :=
  if (s.spindle n).owns .core a bs.length then .ok (s.localPut n a bs) else .error 0x0304

/-- Carries on with a value, or stops the station with a code. -/
def State.orStop {α : Type} (s : State) (n : Nat) (r : Except W16 α) (k : α → State) : State :=
  match r with
  | .error code => s.stopSp n code
  | .ok v => k v

/-- Marks a verified image of `len` bytes; the table has 128 entries (R102). Which one a full table evicts the spec does not say: the oldest mark
leaves first (DESIGN CHOICE, log entry 135). -/
def State.markVerified (s : State) (n a len : Nat) : State :=
  let x := s.spindle n
  let l := x.verified.filter (·.1 != a) ++ [(a, len)]
  s.setSpindle n { x with verified := l.drop (l.length - 128) }

/-- The bytes of an image in local memory from its descriptor on: as many as the descriptor gives, at least 64. Of an image whose length
runs past the end of the local memory only the bytes that exist are read; the checksum takes zeros for the rest (the spec is silent:
DESIGN CHOICE, log entry 105). -/
def State.localImage (s : State) (n a : Nat) : Bytes :=
  let d := Desc.parse (s.localRead n a 64)
  s.localRead n a (min (2 ^ 18 - a) ((d.length).getD 64))

/-- A failed check of a tile in local memory: a failure of step 1 is counted on the consumer's die and records what R367 lists. -/
def State.localFail {α : Type} (s : State) (n a : Nat) (f : TileFail) : Except TileFail α × State :=
  if f.code != 0x0301 then (.error f, s) else
  let d := dieOfSpindle n
  (.error (f.noteCrc (s.localImage n a) (localBase n + a) 0x32 n none), (s.count (pgSTR d) 0x54 1).raise (pgSTR d) 1 f.tensor)

/-- A tile that an instruction names in local memory, checked at use (R86, R102, R364–R366). A first failure of step 1 is
counted in TILE_RETRY and the second fetch of the same bytes fails too. -/
def State.tileAt (s : State) (n : Nat) (a : Nat) (accept : Desc → Option W16) : Except TileFail Tile × State :=
  let img := s.localImage n a
  match checkTile img accept with
  | .ok t => (.ok t, s.markVerified n a img.length)
  | .error f => s.localFail n a f

/-- The same for one half of a transfer tile (R136). -/
def State.xfAt (s : State) (n : Nat) (a half : Nat) : Except TileFail (List (Option XfHalf)) × State :=
  let img := s.localImage n a
  match checkXf img (some half) with
  | .ok (_, hs) => (.ok hs, s.markVerified n a img.length)
  | .error f => s.localFail n a f

end Sys2Proof.Machine
end

