-- ==== Sys2Proof/Machine/Flags.lean ====
section
/-!
DEFINITION. Integer operations, and the status words and status bits that instructions leave: the scalar and vector
integer functions (R290, R293), SR_XSTAT (R321), the status words of transfers and planes (R307, R308, R120).
-/
namespace Sys2Proof.Machine

/-- The integer functions of R290 on `w` bits, wrapping; a shift takes the low six bits of `b`, and one by `w` or more
shifts every bit out. -/
def aluEval {w : Nat} (op : AluOp) (a b : BitVec w) : BitVec w :=
  let sh := b.toNat % 64
  match op with
  | .add => a + b
  | .sub => a - b
  | .and => a &&& b
  | .or => a ||| b
  | .xor => a ^^^ b
  | .shl => a <<< sh
  | .shr => a >>> sh
  | .sar => a.sshiftRight sh
  | .slt => BitVec.ofNat w (b2n (a.slt b))
  | .sltu => BitVec.ofNat w (b2n (a.ult b))
  | .mul => a * b
  | .mulh => BitVec.ofInt w (a.toInt * b.toInt / (2 ^ w : Nat))
  | .mulhu => BitVec.ofNat w (a.toNat * b.toNat / 2 ^ w)
  | .min => if a.slt b then a else b
  | .max => if a.slt b then b else a

/-- The comparisons of the conditional branches (R290). -/
def condHolds (c : Cond) (a b : W64) : Bool :=
  match c with
  | .eq => a == b
  | .ne => a != b
  | .lt => a.slt b
  | .ge => !(a.slt b)
  | .ltu => a.ult b
  | .geu => !(a.ult b)

/-- The vector integer comparisons (R293). -/
def viCmpHolds (c : ViCmp) (a b : W32) : Bool :=
  match c with
  | .eq => a == b
  | .lt => a.slt b
  | .ltu => a.ult b

def LdKind.size : LdKind → Nat
  | .b8 | .u8 => 1
  | .b16 | .u16 => 2
  | .b32 | .u32 => 4
  | .b64 => 8

def LdKind.signed : LdKind → Bool
  | .b8 | .b16 | .b32 => true
  | _ => false

/-- The loaded bytes sign- or zero-extended (R290). -/
def LdKind.extend (k : LdKind) (v : Nat) : W64 :=
  if k.signed then BitVec.ofInt 64 (signedOf (8 * k.size) v) else BitVec.ofNat 64 (v % 2 ^ (8 * k.size))

def StKind.size : StKind → Nat
  | .b8 => 1
  | .b16 => 2
  | .b32 => 4
  | .b64 => 8

def AtomOp.size : AtomOp → Nat
  | .addI64 | .swp64 => 8
  | _ => 4

/-- An atomic's result register and new word from the old word and `b` (R290, R317). -/
def AtomOp.apply (op : AtomOp) (old : Nat) (b : W64) : W64 × Nat :=
  let lo := b.toNat % 2 ^ 32
  match op with
  | .addI32 => (BitVec.ofInt 64 (signedOf 32 old), (old + lo) % 2 ^ 32)
  | .addI64 => (BitVec.ofNat 64 old, (old + b.toNat) % 2 ^ 64)
  | .addF32 => (BitVec.ofNat 64 old, (f32Add (BitVec.ofNat 32 old) (BitVec.ofNat 32 lo)).toNat)
  | .swp32 => (BitVec.ofNat 64 old, lo)
  | .swp64 => (BitVec.ofNat 64 old, b.toNat)

/-- SR_XSTAT after an exchange-bank access: BUSY and TORN describe it, bits 2 and 3 keep sticky copies (R321). -/
def xstatAfter (x : BitVec 4) (busy torn : Bool) : BitVec 4 :=
  let n := b2n busy + 2 * b2n torn
  BitVec.ofNat 4 (n ||| (x.toNat / 4 * 4) ||| (4 * n))

/-- The status word of a PULL: bytes written and CLOSED (R307). -/
def pullStatus (bytes : Nat) (closed : Bool) : W64 := BitVec.ofNat 64 (bytes % 2 ^ 32 + b2n closed * 2 ^ 63)

/-- The status word of a PULL.A: bytes written and TURN_INEXACT (R308). -/
def pullAStatus (bytes inexact : Nat) : W64 := BitVec.ofNat 64 (bytes % 2 ^ 32 + inexact % 2 ^ 13 * 2 ^ 32)

end Sys2Proof.Machine
end

