-- ==== Sys2Proof/Machine/GenKnots.lean ====
section
/-!
DEFINITION. The generation knots (R394–R404): the slot states that live in them, the held generations, and the seed slot and
serial that a generation's draws use (R246).
-/
namespace Sys2Proof.Machine

/-- The first generation knot of the loaded job (R395, R426). -/
def State.genKnot (s : State) : Option Nat := s.job.mapping.map (·.genKnot)

/-- A slot knot's fields (R396). -/
def skState (v : W64) : Nat := field v.toNat 60 4
def skSerial (v : W64) : Nat := field v.toNat 32 24
def skPins (v : W64) : Nat := v.toNat % 2 ^ 32
def skValue (st serial pins : Nat) : W64 := BitVec.ofNat 64 (st % 16 * 2 ^ 60 + serial % 2 ^ 24 * 2 ^ 32 + pins % 2 ^ 32)

/-- The value of slot knot `j`; zero (EMPTY) where no mapping is loaded. -/
def State.slotKnot (s : State) (j : Nat) : W64 :=
  match s.genKnot with
  | some g => (s.knot (g + j)).value
  | none => 0

def State.slotState (s : State) (j : Nat) : Nat := skState (s.slotKnot j)
def State.slotSerial (s : State) (j : Nat) : Nat := skSerial (s.slotKnot j)

/-- COMMITS, and BUILD (R395). -/
def State.commits (s : State) : Nat := match s.genKnot with | some g => (s.knot (g + 3)).value.toNat | none => 0
def State.build (s : State) : Nat := match s.genKnot with | some g => (s.knot (g + 4)).value.toNat | none => 0

/-- The slot that holds the generation of a number (R402). -/
def State.heldSlot (s : State) (num : Nat) : Option Nat :=
  (List.range 3).find? fun j => s.slotState j != 0 && s.slotSerial j % 65536 == num % 65536

def State.genHeld (s : State) (num : Nat) : Bool := (s.heldSlot num).isSome

/-- The serial of a held generation, by its number (R246). -/
def State.serialOf (s : State) (num : Nat) : Nat :=
  match s.heldSlot num with
  | some j => s.slotSerial j
  | none => 0

/-- The slot in a given state (R401). -/
def State.slotIn (s : State) (st : Nat) : Option Nat := (List.range 3).find? fun j => s.slotState j == st

/-- A station's operation on a knot that R397 forbids: anything on COMMITS that changes it, and on a slot knot a SET or an
ADD that changes it, other than of ±1 that keeps the pins in their 32 bits. -/
def State.genMisuse (s : State) (k : Nat) (op : KnotOp) (v : W64) : Bool :=
  match s.genKnot with
  | none => false
  | some g =>
    let x := (s.knot k).value
    if k == g + 3 then
      (match op with
       | .add => v != 0
       | .set => v != x
       | _ => false)
    else if g ≤ k ∧ k < g + 3 then
      (match op with
       | .add => v != 0 && !((v == 1 && skPins x != 0xFFFFFFFF) || (v == 0xFFFFFFFFFFFFFFFF && skPins x != 0))
       | .set => true
       | _ => false)
    else false

end Sys2Proof.Machine
end

