-- ==== Sys2Proof/Machine/Ply.lean ====
section
/-!
DEFINITION. The ply unit (R186–R228): references to trackers, epochs, reports and steps, the policy engine, channel
statistics and factors, the spill pool, and what a draw needs (R244–R250).
-/
namespace Sys2Proof.Machine

/-! ### Tracker references (R186, R188, R189) -/

/-- A tracker reference's fields. -/
structure TRef where
  epoch : Nat
  tally : Bool
  skein : Nat
  tracker : Nat
deriving DecidableEq, Repr, Inhabited

def TRef.parse (v : W64) : TRef :=
  ⟨field v.toNat 16 16, bit v.toNat 15, field v.toNat 8 7, field v.toNat 0 8⟩

def State.trackerOf (s : State) (r : TRef) : Tracker := (s.skein r.skein).trackers.get Tracker.reset r.tracker
def State.setTracker (s : State) (k j : Nat) (t : Tracker) : State :=
  s.setSkein k { s.skein k with trackers := (s.skein k).trackers.set Tracker.reset j t }

/-- The tracker that a station names, or TRACKER_MISMATCH (R188). -/
def State.refTracker (s : State) (station : Nat) (v : W64) : Except W16 (TRef × Tracker) :=
  let r := TRef.parse v
  let t := s.trackerOf r
  if 2 ^ 32 ≤ v.toNat ∨ !s.skeinPresent r.skein ∨ !t.bound ∨ t.bind.station ≠ station then .error 0x020C
  else .ok (r, t)

/-- A tile's tensor id and column lie in the tracker's binding (R188). -/
def Tracker.covers (t : Tracker) (tensor col : Nat) : Bool :=
  t.bind.tensor == tensor && (t.bind.coln == 0 || (decide (t.bind.col0 ≤ col) && decide (col < t.bind.col0 + t.bind.coln)))

/-- As `refTracker`, for a request about a tile. -/
def State.tileTracker (s : State) (station : Nat) (v : W64) (tensor col : Nat) : Except W16 (TRef × Tracker) :=
  match s.refTracker station v with
  | .error c => .error c
  | .ok (r, t) => if t.covers tensor col then .ok (r, t) else .error 0x020C

/-- Distance of an epoch from the tracker's (R189). -/
def Tracker.dist (t : Tracker) (e : Nat) : Nat := (e + 65536 - t.epoch.toNat) % 65536

/-- The answer to a read: the values of the named epoch, a wait, or a stale epoch (R189). -/
inductive EpochRead where
  | values (exp : Nat) (anchor : Int) (prev : Bool)
  | wait
  | stale
deriving DecidableEq, Repr, Inhabited

def Tracker.read (t : Tracker) (e : Nat) : EpochRead :=
  let d := t.dist e
  if d == 0 then .values t.exp t.anchor false
  else if d == 0xFFFF then .values t.prevExp t.prevAnchor true
  else if d ≤ 0x7FFF then .wait
  else .stale

/-- Carries on with the values of the epoch that a reference names; waits, or stops the station (R189). -/
def State.withEpoch (s : State) (n : Nat) (r : TRef) (t : Tracker) (k : Nat → Int → Bool → State) : State :=
  match t.read r.epoch with
  | .values e a prev => k e a prev
  | .wait => s.await n .waitTracker (.tracker (256 * r.skein + r.tracker))
  | .stale => s.stopSp n 0x020B

/-! ### Reports (R190–R195) -/

/-- Raises a ply event for a tracker; its record carries the tracker number (R226, R643). -/
def State.plyEvent (s : State) (k b j : Nat) : State :=
  s.raiseX (pgPLY k) b 0 j (some (leBytes 2 j ++ zeros 14))

/-- A report leaves for its tracker (R194). -/
def State.sendReport (s : State) (r : Report) : State :=
  let k := (TRef.parse r.tref).skein
  s.setSkein k { s.skein k with reports := (s.skein k).reports ++ [r] }

def ctrTop : Nat := 2 ^ 40 - 1

/-- Counts added to a tracker's totals; a total that reaches its top raises COUNTER_SAT (R195, R225). -/
def State.addCounts (s : State) (k j : Nat) (c : Counts) : State :=
  let t := s.trackerOf ⟨0, false, k, j⟩
  let new := t.ctr.addSat ctrTop c
  let s := s.setTracker k j { t with ctr := new }
  let sat := (new.toList.zip t.ctr.toList).any fun p => p.1 == ctrTop && p.2 != ctrTop
  if sat then s.plyEvent k 5 j else s

/-- Channel statistics of one tile joined to an epoch's accumulator (R220). -/
def ChanAcc.join (a : ChanAcc) (lo hi : W32) (clipped elems : Nat) : ChanAcc :=
  { seen := true, lo := if a.seen then f32Min a.lo lo else lo, hi := if a.seen then f32Max a.hi hi else hi,
    clipped := a.clipped + clipped, elems := a.elems + elems }

/-- The channel entry of column `c` of a tile, if the tracker has one (R220). -/
def Binding.channel (b : Binding) (col c : Nat) : Option Nat :=
  let i := 64 * (col - b.col0) + c
  if i < b.chCount then some (b.chBase + i) else Option.none

/-- A tile's statistics of one channel joined to the accumulator of the current step (0) or of a later one. -/
def Channel.joinAt (x : Channel) (i : Nat) (lo hi : W32) (clipped : Nat) : Channel :=
  if i == 0 then { x with cur := x.cur.join lo hi clipped 64 }
  else if i == 1 then { x with nxt := x.nxt.join lo hi clipped 64 }
  else { x with nxt2 := x.nxt2.join lo hi clipped 64 }

def joinChans (b : Binding) (i : Nat) (r : Report) (t : Tbl Channel) : Tbl Channel :=
  r.chans.foldl (fun t (c, lo, hi, clipped) =>
    match b.channel r.col c with
    | none => t
    | some e => t.set Channel.reset e ((t.get Channel.reset e).joinAt i lo hi clipped)) t

def StepAcc.join (a : StepAcc) (r : Report) : StepAcc :=
  { reports := a.reports + 1, counts := a.counts.add r.counts, nonzero := a.nonzero + r.nonzero,
    fit := if a.fit.ult r.fit then r.fit else a.fit }

/-- The reports of an epoch's step are complete (R190). -/
def Binding.stepFull (b : Binding) (a : StepAcc) : Bool := b.stepTiles != 0 && decide (b.stepTiles ≤ a.reports)

/-- Steps whose last report has arrived and that have yet to run: for the judgment of reports the epoch counts as advanced by as many
(R191). -/
def Tracker.ahead (t : Tracker) : Nat :=
  if !t.bind.stepFull t.cur then 0 else if !t.bind.stepFull t.nxt then 1 else if !t.bind.stepFull t.nxt2 then 2 else 3

/-- The last report of the epoch has arrived, and the step runs (R191, R193). -/
def Tracker.stepping (t : Tracker) : Bool := t.bind.stepFull t.cur

/-- What becomes of a report that arrives: joined to the accumulators of the current step (0) or of the first or second after it, counted
only, held back, or refused (R191, R192). -/
inductive Judged where
  | join (i : Nat) | past | hold | stale
deriving DecidableEq, Repr, Inhabited

/-- A report is judged against the epoch as advanced. One of that epoch joins its step, one of the next is held in the accumulators of the
step after; a third epoch's accumulators do not exist, so a report that would need them waits for a step to end (log entry 28). -/
def Tracker.judge (t : Tracker) (e : Nat) (tally : Bool) : Judged :=
  let a := t.ahead
  let d := (t.dist e + 65536 - a) % 65536
  if d == 0xFFFF then (if tally then .past else .stale)
  else if 0x7FFF < d then .stale
  else if d ≤ 1 ∧ a + d ≤ 2 then .join (a + d)
  else .hold

/-- A report of an epoch two or more after the epoch as advanced stalls its producer (R191). -/
def Tracker.stalls (t : Tracker) (e : Nat) : Bool :=
  let d := (t.dist e + 65536 - t.ahead) % 65536
  decide (2 ≤ d) && decide (d ≤ 0x7FFF)

/-- A report joined to the accumulators that it belongs to. -/
def Tracker.joinAt (t : Tracker) (i : Nat) (r : Report) : Tracker :=
  if i == 0 then { t with cur := t.cur.join r } else if i == 1 then { t with nxt := t.nxt.join r } else { t with nxt2 := t.nxt2.join r }

/-- A producer that a stalled report held goes on (R191). -/
def State.unstall (s : State) (n : Nat) : State :=
  let x := s.spindle n
  if x.wait == .report && !(s.sk.any fun kv => kv.2.reports.any fun r => r.stalled && r.spindle == n)
  then s.setSpindle n { x with run := .run, wait := .none } else s

/-- A report arrives at its tracker (R190–R195). -/
def State.deliverReport (s : State) (k : Nat) (r : Report) : State :=
  let ref := TRef.parse r.tref
  let j := ref.tracker
  let t := s.trackerOf ref
  let tally := ref.tally || t.bind.stepTiles == 0
  match t.judge ref.epoch tally with
  | .hold => s
  | .stale => s.stopSp r.spindle 0x020B
  | .past => s.addCounts k j r.counts
  | .join i =>
    let s := s.addCounts k j r.counts
    let t := s.trackerOf ref
    let s := if tally then s else s.setTracker k j (t.joinAt i r)
    s.setSkein k { s.skein k with channels := joinChans t.bind i r (s.skein k).channels }

/-- The reports without the one at index `i`. -/
def dropAt {α : Type} (l : List α) (i : Nat) : List α := l.take i ++ l.drop (i + 1)

/-- The first report on its way that its tracker can take (or refuse), by its place in the list. -/
def State.readyReport (s : State) (k : Nat) : Option Nat :=
  (List.range (s.skein k).reports.length).find? fun i =>
    match (s.skein k).reports[i]? with
    | some r =>
      let ref := TRef.parse r.tref
      let t := s.trackerOf ref
      t.judge ref.epoch (ref.tally || t.bind.stepTiles == 0) != .hold
    | none => false

/-- Reports that stall their producers are marked, and a producer that would issue waits (R191). -/
def State.markStalls (s : State) (k : Nat) : State :=
  let rs := (s.skein k).reports.map fun r =>
    { r with stalled := (s.trackerOf (TRef.parse r.tref)).stalls (TRef.parse r.tref).epoch }
  let s := s.setSkein k { s.skein k with reports := rs }
  rs.foldl (fun s r =>
    let x := s.spindle r.spindle
    if r.stalled && x.run == .run then s.setSpindle r.spindle { x with run := .waitTracker, wait := .report } else s) s

/-- TRACKER_REPORT (R190): the oldest report that its tracker can take arrives; where none can, the stalls of R191 take
hold. -/
def execTrackerReport (k : Nat) (s : State) : Host.Outcome State Fault Refusal :=
  .next (
    if !s.jobLive || s.paused then s else
    match s.readyReport k with
    | none => s.markStalls k
    | some i =>
      match (s.skein k).reports[i]? with
      | none => s
      | some r =>
        let s := s.setSkein k { s.skein k with reports := dropAt (s.skein k).reports i }
        (s.deliverReport k r).unstall r.spindle)

/-! ### The policy engine (R211–R218) -/

/-- The default policy table (R218). -/
def defaultTable : Bytes :=
  leBytes 1 1 ++ leBytes 1 5 ++ leBytes 1 32 ++ leBytes 1 14 ++ leBytes 4 0x400 ++ leBytes 4 0x10000
    ++ leBytes 4 0x800000 ++ zeros 48
    ++ leBytes 8 0x8D40000000000000 ++ leBytes 8 0x8984000000000000 ++ leBytes 8 0x9312000000000000
    ++ leBytes 8 0x9B80400000000000 ++ zeros 32
    ++ leBytes 8 0x8D40000000000000 ++ leBytes 8 0x8904000000000000 ++ leBytes 8 0x8000000000000000 ++ zeros 40
    ++ leBytes 8 0x8140000000000000 ++ leBytes 8 0x9312000000000000 ++ leBytes 8 0x8000000000000000 ++ zeros 40
    ++ leBytes 8 0x8080000000000000 ++ leBytes 8 0x8100000000000000 ++ zeros 48
    ++ zeros 64 ++ zeros 704

/-- The table in a slot of a ply unit (R217). -/
def Skein.table (k : Skein) (slot : Nat) : Bytes := if slot == 0 then defaultTable else (k.slots.find slot).getD []

/-- A three-way condition on a share and its threshold (R215). -/
def levelHolds (code v top : Nat) : Bool :=
  if code == 0 then true else if code == 1 then decide (top < v) else if code == 2 then v == 0 else decide (v ≤ top)

/-- The inputs of a policy step (R211). -/
structure PolicyIn where
  C : Nat
  V : Nat
  X : Nat
  g : Int
  gh : Int
  dwell : Nat
deriving DecidableEq, Repr, Inhabited

/-- A rule word's conditions hold (R215). -/
def ruleHolds (tab : Bytes) (w : Nat) (p : PolicyIn) : Bool :=
  let gap := field w 48 2
  let dw := field w 46 2
  let dwell := leAt tab 2 1
  bit w 63 && levelHolds (field w 54 2) p.C (leAt tab 4 4 % 2 ^ 24) && levelHolds (field w 52 2) p.V (leAt tab 8 4 % 2 ^ 24)
    && levelHolds (field w 50 2) p.X (leAt tab 12 4 % 2 ^ 24)
    && (gap == 0 || (gap == 1 && decide (1 ≤ p.g)) || (gap == 2 && decide (p.gh ≤ -1)) || (gap == 3 && decide (p.gh ≤ -2)))
    && (dw == 0 || (dw == 1 && decide (dwell ≤ p.dwell)) || (dw == 2 && decide (p.dwell < dwell)))

/-- dE of a rule (R215). -/
def ruleDelta (w : Nat) (g : Int) : Int :=
  let c := field w 56 3
  if c == 1 then 1 else if c == 2 then 2 else if c == 3 then -1 else if c == 4 then -2
  else if c == 5 then clampInt g 1 2 else 0

/-- The rules of a state, in order. -/
def rulesOf (tab : Bytes) (state : Nat) : List Nat := (List.range 8).map fun j => leAt tab (0x40 + 64 * state + 8 * j) 8

def shareCap : Nat := 0xFFFFFF

/-- The format of a binding; F32 where a code names none (bindings are checked at load, R187). -/
def Binding.fmt (b : Binding) : Fmt := (Fmt.ofCode b.format).getD .f32

/-- The step of the policy engine (R211–R214); an empty step keeps everything (R212). -/
def Tracker.policy (t : Tracker) (tab : Bytes) : Tracker :=
  let a := t.cur
  if a.fit == 0 then t else
  let b := t.bind
  let hist := (a.fit :: t.hist).take 16
  let top := hist.foldl (fun m h => if m.ult h then h else m) 0
  let c := a.counts
  let p : PolicyIn :=
    { C := min shareCap (2 ^ 24 * (c.clipped + c.clamped) / (4096 * b.stepTiles)),
      V := if a.nonzero == 0 then 0 else min shareCap (2 ^ 24 * c.vanished / a.nonzero),
      X := min shareCap (2 ^ 24 * c.escaped / (32 * b.stepTiles)),
      g := (fitExpHeld b.fmt b.book a.fit .rne : Int) - t.exp, gh := (fitExpHeld b.fmt b.book top .rne : Int) - t.exp,
      dwell := t.dwell }
  let t := match (rulesOf tab t.state).find? fun w => ruleHolds tab w p with
    | some w =>
      let next := field w 59 4
      { t with exp := (clampInt ((t.exp : Int) + ruleDelta w p.g) 1 0xFE).toNat, state := next,
               dwell := if next == t.state then min (t.dwell + 1) 65535 else 0 }
    | none => { t with dwell := min (t.dwell + 1) 65535 }
  let h : Int := if top == 0x7F800000 then 128 else (f32Val top).log2
  { t with hist := hist, C := p.C, V := p.V, X := p.X,
           anchor := if top == 0 then t.anchor else clampInt (h + signedOf 8 (leAt tab 3 1)) (-32768) 32767 }

/-! ### Channel results at a step (R220, R221) -/

/-- 2^k as binary32, k held to ±64. -/
def f32Pow2 (k : Int) : W32 := BitVec.ofInt 32 ((127 + clampInt k (-64) 64) * 2 ^ 23)

/-- The range that sets an AUTO factor (R221); values of a channel that no tile reached have maximum 0. -/
def ChanAcc.spread (a : ChanAcc) (flat : Bool) (mode : Nat) : Dy :=
  let lo := f32Val a.lo
  let hi := f32Val a.hi
  if !a.seen then Dy.zero
  else if mode == 3 && !flat then (hi.sub lo).scale (-1)
  else lo.abs.max hi.abs

/-- A channel entry at a step: results published, the later epochs' accumulators moved up, factors advanced. A FLAT channel's range reads
zero: both its published minimum and its published maximum do (the words allow other readings: DESIGN CHOICE, log entry 26). -/
def Channel.step (x : Channel) (b : Binding) : Channel :=
  let a := x.cur
  let flat := a.seen && f32Eq a.lo a.hi
  let f := if b.rsMode == 2 || b.rsMode == 3 then
      (let sp := a.spread flat b.rsMode
       if sp.isZero then 0x3F800000 else f32Pow2 (b.rsTarget - sp.log2))
    else x.nextFactor
  { lo := if flat then 0 else a.lo, hi := if flat then 0 else a.hi, clipped := a.clipped, flat := flat,
    cur := x.nxt, nxt := x.nxt2, nxt2 := ChanAcc.zero, factor := f, prevFactor := x.factor, nextFactor := f }

/-- Every channel entry of a tracker stepped; the count of FLAT channels. -/
def stepChannels (b : Binding) (t : Tbl Channel) : Tbl Channel × Nat :=
  (List.range b.chCount).foldl (fun (t, n) i =>
    let x := (t.get Channel.reset (b.chBase + i)).step b
    (t.set Channel.reset (b.chBase + i) x, n + b2n x.flat)) (t, 0)

/-- The step of a tracker from its epoch to the next (R190, R193, R211–R221). -/
def State.stepTracker (s : State) (k j : Nat) : State :=
  let t := s.trackerOf ⟨0, false, k, j⟩
  let u := t.policy ((s.skein k).table t.slot)
  let (chans, flats) := stepChannels t.bind (s.skein k).channels
  let s := s.setTracker k j { u with epoch := t.epoch + 1, prevExp := t.exp, prevAnchor := t.anchor, cur := t.nxt,
                                     nxt := t.nxt2, nxt2 := StepAcc.zero }
  let s := s.setSkein k { s.skein k with channels := chans }
  if flats == 0 then s else (s.addCounts k j { Counts.zero with flat := flats }).plyEvent k 3 j

/-- TRACKER_STEP (R193): once the last report of the epoch has arrived. -/
def execTrackerStep (k j : Nat) (s : State) : Host.Outcome State Fault Refusal :=
  .next (if s.jobLive && !s.paused && (s.trackerOf ⟨0, false, k, j⟩).bound && (s.trackerOf ⟨0, false, k, j⟩).stepping
    then s.stepTracker k j else s)

/-! ### The spill pool (R204–R208) -/

/-- The spill quota of a station in a skein (R205). -/
def State.spillQuota (s : State) (station k : Nat) : Nat := ((s.station station).map fun t => t.img.spillQuota.get 0 k).getD 0

def Skein.spillFree (k : Skein) (station quota : Nat) : Nat := quota - k.spillUsed.get 0 station

/-- A reservation of `want` entries for the encoding of spindle `n` (R206): granted at once if the quota has room and
nobody of the station waits, or granted by SPILL_RESERVATION; else the encoding waits and its instruction issues again. -/
def State.reserveSpill (s : State) (n want : Nat) (k : State → State) : State :=
  let x := s.spindle n
  let sk := s.skein (skeinOf n)
  match sk.spillWait.find? fun q => q.spindle == n with
  | some q =>
    if q.granted then k (s.setSkein (skeinOf n) { sk with spillWait := sk.spillWait.filter fun q => q.spindle != n })
    else s.await n .waitTracker .spill
  | none =>
    if !(sk.spillWait.any fun q => q.station == x.station && !q.granted)
        && decide (want ≤ sk.spillFree x.station (s.spillQuota x.station (skeinOf n))) then
      k (s.setSkein (skeinOf n) { sk with spillUsed := sk.spillUsed.set 0 x.station (sk.spillUsed.get 0 x.station + want) })
    else
      let s := s.setSkein (skeinOf n) { sk with spillWait := sk.spillWait ++ [⟨n, x.station, want, false⟩] }
      s.await n .waitTracker .spill

/-- Entries of a reservation returned (R206). -/
def State.releaseSpill (s : State) (n count : Nat) : State :=
  let x := s.spindle n
  let sk := s.skein (skeinOf n)
  s.setSkein (skeinOf n) { sk with spillUsed := sk.spillUsed.set 0 x.station (sk.spillUsed.get 0 x.station - count) }

/-- SPILL_RESERVATION (R206): the oldest request for which its station's quota has room, and before which no request of
its station waits, receives its entries. -/
def execSpillReservation (k : Nat) (s : State) : Host.Outcome State Fault Refusal :=
  .next (
    let sk := s.skein k
    let open_ := sk.spillWait.filter fun q => !q.granted
    match open_.find? fun q =>
        ((open_.find? fun r => r.station == q.station).map (·.spindle)) == some q.spindle
          && decide (q.want ≤ sk.spillFree q.station (s.spillQuota q.station k)) with
    | none => s
    | some q =>
      if !s.jobLive || s.paused then s else
      s.setSkein k { sk with
        spillUsed := sk.spillUsed.set 0 q.station (sk.spillUsed.get 0 q.station + q.want),
        spillWait := sk.spillWait.map fun r => if r.spindle == q.spindle then { r with granted := true } else r })

/-- The spindle waits for a reservation that has not been granted. -/
def State.spillWaiting (s : State) (n : Nat) : Bool :=
  s.jobLive && !s.paused && (s.skein (skeinOf n)).spillWait.any fun q => q.spindle == n && !q.granted

/-- The tracker reference that a waiting CVT, ACC.RND or ACC.OPEN names (R189, R206). -/
def State.waitTref (s : State) (n : Nat) : W64 :=
  let x := s.spindle n
  match s.fetch n with
  | .ok w =>
    match decodeSp w with
    | some (.cvt _ _ _ _ _ c _ _) => x.s c
    | some (.accRnd _ _ _ _ (some p) _ _ _) => (x.plane p).tref
    | some (.accOpen _ b _ _) => x.s b
    | _ => 0
  | .error _ => 0

/-- The spindle waits for an epoch that its tracker has not reached. -/
def State.epochWaiting (s : State) (n : Nat) : Bool :=
  match (s.spindle n).wait with
  | .tracker _ =>
    let r := TRef.parse (s.waitTref n)
    s.jobLive && !s.paused && (s.trackerOf r).read r.epoch == .wait
  | _ => false

/-- TRACKER_WAIT_TIMEOUT (R189): a read that waits for a later epoch stops its station. -/
def execTrackerWaitTimeout (n : Nat) (s : State) : Host.Outcome State Fault Refusal :=
  .next (if s.epochWaiting n then s.timeoutSp n 0x0411 else s)

/-- SPILL_WAIT (R226): 1,024 cycles of waiting raise the event; its argument is the tracker that the encoding names. The event is raised by
that tracker's ply unit, also where the pool that the reservation waits for lies in another skein (the spec does not say which: DESIGN
CHOICE, log entry 107). -/
def execSpillWait (n : Nat) (s : State) : Host.Outcome State Fault Refusal :=
  .next (if s.spillWaiting n then
      let r := TRef.parse (s.waitTref n)
      s.plyEvent r.skein 4 r.tracker
    else s)

/-- SPILL_WAIT_TIMEOUT (R206). -/
def execSpillWaitTimeout (n : Nat) (s : State) : Host.Outcome State Fault Refusal :=
  .next (if s.spillWaiting n then s.timeoutSp n 0x0412 else s)

/-! ### What a draw needs (R244–R250) -/

/-- The width of a tensor in the station's tensor table (R248). -/
def State.tensorWidth (s : State) (station tensor : Nat) : Option Nat :=
  match s.station station with
  | some t => t.img.tensors.find tensor
  | none => none

/-- The key of a seed slot, or SEED_SLOT_EMPTY (R244). -/
def State.seedKey (s : State) (slot : Nat) : Except W16 SlotKey :=
  match s.job.seeds.find slot with
  | some seed => .ok (slotKey seed)
  | none => .error 0x010C

/-- The words that the elements of an output tile draw: zero unless the mode is STOCH, whose slot, tensor and generation
are checked in that order (R250). -/
def State.drawWords (s : State) (n : Nat) (r : Rounding) (sd : DescSeed) : Except W16 (Nat → Nat) :=
  match r with
  | .stoch slot =>
    (match s.seedKey slot.toNat with
     | .error c => .error c
     | .ok key =>
       match s.tensorWidth (s.spindle n).station sd.tensor with
       | none => .error 0x010D
       | some w =>
         if sd.genValid && !s.genHeld sd.gen then .error 0x0416
         else
           let serial := if sd.genValid then s.serialOf sd.gen else 0
           .ok (roundWord key w sd.tensor sd.row sd.col serial))
  | _ => .ok fun _ => 0

end Sys2Proof.Machine
end

