-- ==== Sys2Proof/Machine/Array.lean ====
section
/-!
DEFINITION. The forward and backward arrays and the escape lane (R90–R106, R141–R152, R304): weight loads, passes, explicit
terms, and the accumulators they add into (R107–R111).
-/
namespace Sys2Proof.Machine

/-! ### Accumulators (R107–R111) -/

/-- The bound that no term and no final sum may reach: 2^(A + 31), in units of 2^(A − 160) (R109, R110). -/
def accBound : Nat := 2 ^ 191

/-- Adds one exact term into a plane (R109). A term that overflows is counted and not added; bits below bit 0 drop. -/
def PlaneSt.addTerm (p : PlaneSt) (row col : Nat) (v : Dy) : PlaneSt :=
  if v.isZero then p
  else if !(v.abs.lt ⟨1, p.anchor + 31⟩) then { p with ovf := true, ovfTerms := sat32 (p.ovfTerms + 1) }
  else
    let (t, exact) := v.truncAt (p.anchor - 160)
    let k := 64 * row + col
    { p with drops := if exact then p.drops else sat32 (p.drops + 1), acc := p.acc.set 0 k (p.acc.get 0 k + t) }

def PlaneSt.addTerms (p : PlaneSt) (ts : List Term) : PlaneSt := ts.foldl (fun p t => p.addTerm t.row t.col t.v) p

/-- The plane is overflowed (R110). -/
def PlaneSt.overflowed (p : PlaneSt) : Bool := p.ovf || p.acc.any fun kv => decide (accBound ≤ kv.2.natAbs)

/-- The passes that a plane takes between its opening and its round or save (R111). -/
def passLimit : Nat := 2 ^ 19

/-! ### Weight blocks and passes (R91–R105, R143–R149) -/

/-- The relative unit of an ordinary element: its level on the forward array, in units of 2^−25 on the backward array
(R96, R146); an escape counts as zero. -/
def unitOf (t : Tile) (q : Nat) (bwd : Bool) : Int :=
  if t.isEscape q then 0
  else ((codeValue t.fmt t.desc.book (t.code q)).truncAt (if bwd then -25 else 0)).1

/-- The escapes of one block: position and side-list value. -/
def blockEscs (t : Tile) (b : Nat) : List (Nat × W32) :=
  if t.exps.getD b 0 == 0 then [] else
  (List.range 32).filterMap fun p =>
    let q := 32 * b + p
    if t.isEscape q then some (p, (t.side.find (elemIdx t.desc.axis q)).getD 0) else none

/-- Reduction half `h` of a tile as a weight block: blocks 2 j + h (R91, R143). -/
def weightBlock (t : Tile) (h : Nat) (bwd : Bool) : WBlock :=
  { half := h, fmt := t.fmt, exps := (List.range 64).map fun j => t.exps.getD (2 * j + h) 0,
    units := (List.range 64).flatMap fun j => (List.range 32).map fun p => unitOf t (32 * (2 * j + h) + p) bwd,
    escs := (List.range 64).flatMap fun j => (blockEscs t (2 * j + h)).map fun e => (j, e.1, e.2) }

/-- The block sums of one pass: one term for each row and column whose blocks are not zero blocks and whose exact sum is not
zero (R96, R147). `z` is twice the binary places of a unit. -/
def blockSums (x : WBlock) (w : WBlock) (rows : Nat) (z : Nat) : List Term :=
  let xu := x.units.toArray
  let wu := w.units.toArray
  (List.range rows).flatMap fun r =>
    let ex := x.exps.getD r 0
    if ex == 0 then [] else
    (List.range 64).filterMap fun j =>
      let ew := w.exps.getD j 0
      if ew == 0 then none else
      let sum := (List.range 32).foldl (fun a p => a + xu.getD (32 * r + p) 0 * wu.getD (32 * j + p) 0) 0
      if sum == 0 then none else some ⟨r, j, ⟨sum, (ex : Int) + ew - 254 - z⟩⟩

/-- The escape products of one pass (R103–R105, R149): an activation escape meets ordinary weights, a weight escape meets
every activation; a pair of escapes is taken once, by the weight's. `z` is the binary places of a unit. -/
def escapeTerms (x : WBlock) (w : WBlock) (rows : Nat) (z : Nat) : List Term :=
  let keep : Term → Option Term := fun t => if t.v.isZero then none else some t
  (x.escs.flatMap fun (r, p, fx) =>
    (List.range 64).filterMap fun j =>
      let ew := w.exps.getD j 0
      if ew == 0 || w.escs.any (fun e => e.1 == j && e.2.1 == p) then none
      else keep ⟨r, j, (f32Val fx).mul ⟨w.units.getD (32 * j + p) 0, (ew : Int) - 127 - z⟩⟩)
  ++ (w.escs.flatMap fun (j, p, fw) =>
    (List.range rows).filterMap fun r =>
      let ex := x.exps.getD r 0
      if ex == 0 then none
      else match x.escs.find? fun e => e.1 == r && e.2.1 == p with
        | some e => keep ⟨r, j, (f32Val fw).mul (f32Val e.2.2)⟩
        | none => keep ⟨r, j, (f32Val fw).mul ⟨x.units.getD (32 * r + p) 0, (ex : Int) - 127 - z⟩⟩)

/-- The left operand's 32 blocks of one pass: rows 32 xh + r, blocks 2 (32 xh + r) + h (R90, R147). -/
def leftBlock (t : Tile) (xh h : Nat) (bwd : Bool) : WBlock :=
  { half := h, fmt := t.fmt, exps := (List.range 32).map fun r => t.exps.getD (2 * (32 * xh + r) + h) 0,
    units := (List.range 32).flatMap fun r =>
      (List.range 32).map fun p => unitOf t (32 * (2 * (32 * xh + r) + h) + p) bwd,
    escs := (List.range 32).flatMap fun r => (blockEscs t (2 * (32 * xh + r) + h)).map fun e => (r, e.1, e.2) }

/-- All terms of a pass (R96, R103, R147, R149). -/
def passTerms (x w : WBlock) (bwd : Bool) : List Term :=
  blockSums x w 32 (if bwd then 50 else 0) ++ escapeTerms x w 32 (if bwd then 25 else 0)

/-- Step 5 of an array operand: the suffix's format (N4 covers N4B), and the reduction axis (R41, R77, R93, R142, R144). -/
def acceptArray (f : Fmt) (axis : Nat) (d : Desc) : Option W16 :=
  if !(d.format == f.code || (f == .n4 && d.format == 0x02)) then some 0x0206
  else if d.axis == axis then none else some 0x0203

def Spindle.array (x : Spindle) (bwd : Bool) : ArraySt := if bwd then x.bwd else x.fwd
def Spindle.setArray (x : Spindle) (bwd : Bool) (v : ArraySt) : Spindle :=
  if bwd then { x with bwd := v } else { x with fwd := v }

/-- Instructions of a kind in the array's input buffer; it holds four (R34, R283). -/
def Spindle.buffered (x : Spindle) (k : ArrayKind) : Nat := (x.passes.filter fun p => p.kind == k).length

def arrayKind (bwd : Bool) : ArrayKind := if bwd then .bwd else .fwd

/-- A weight load takes its place in the input buffer. -/
def Spindle.addLoad (x : Spindle) (bwd : Bool) : Spindle := { x with passes := x.passes ++ [⟨arrayKind bwd, none, []⟩] }

/-- FMM.LDW and BMM.LDB (R91, R95, R143, R145): the load waits while a loaded block has not been swapped in, and for a slot of the input
buffer (R34, R283). -/
def opLoadBlock (n : Nat) (bwd : Bool) (f : Fmt) (a : Reg) (h : Bool) (axis : Nat) (s : State) : State :=
  let x := s.spindle n
  if (x.array bwd).shadow.isSome then s.await n .waitArray .array
  else if 4 ≤ x.buffered (arrayKind bwd) then s.await n .waitArray .array else
  s.orStop n (localAddr (x.s a) 0 64) fun at_ =>
  match s.tileAt n at_ (acceptArray f axis) with
  | (.error e, s) => s.stopTile n e
  | (.ok t, s) =>
    let x := s.spindle n
    (s.setSpindle n ((x.setArray bwd { x.array bwd with shadow := some (weightBlock t (b2n h) bwd) }).addLoad bwd)).retire n

/-- A pass joins the input buffer and counts toward the limit (R111). -/
def Spindle.addPass (x : Spindle) (k : ArrayKind) (p : Plane) (count : Nat) (ts : List Term) : Spindle :=
  let q := x.plane p
  (Spindle.setPlane { x with passes := x.passes ++ [⟨k, some p, ts⟩] } p { q with passes := q.passes + count })

/-- FMM and BMM (R92–R105, R143–R149). -/
def opPass (n : Nat) (bwd : Bool) (f : Fmt) (a : Reg) (pl : Plane) (xh swap : Bool) (axis : Nat) (s : State) : State :=
  let x := s.spindle n
  let kind := arrayKind bwd
  if !(x.plane pl).isOpen then s.stopSp n 0x0208
  else if 4 ≤ x.buffered kind then s.await n .waitArray .array else
  s.orStop n (localAddr (x.s a) 0 64) fun at_ =>
  match s.tileAt n at_ (acceptArray f axis) with
  | (.error e, s) => s.stopTile n e
  | (.ok t, s) =>
    let x := s.spindle n
    let ar := x.array bwd
    if passLimit < (x.plane pl).passes + 1 then s.stopSp n 0x0209 else
    match (if swap then ar.shadow else ar.resident) with
    | none => s.stopSp n 0x0207
    | some w =>
      let x := if swap then x.setArray bwd ⟨none, some w⟩ else x
      let x := x.addPass kind pl 1 (passTerms (leftBlock t (b2n xh) w.half bwd) w bwd)
      (s.setSpindle n x).retire n

/-- The first entry of an explicit list that is refused, and why (R304). -/
def escListBad (bs : Bytes) : Nat → Nat → Option W16
  | 0, _ => none
  | k + 1, i =>
    let e := (bs.drop (16 * i)).take 16
    if 31 < leAt e 0 1 ∨ 63 < leAt e 1 1 ∨ leAt e 2 6 ≠ 0 then some 0x0211
    else if !(f32Finite (BitVec.ofNat 32 (leAt e 8 4))) || !(f32Finite (BitVec.ofNat 32 (leAt e 12 4))) then some 0x0201
    else escListBad bs k (i + 1)

def escListTerms (bs : Bytes) (n : Nat) : List Term :=
  (List.range n).filterMap fun i =>
    let e := (bs.drop (16 * i)).take 16
    let v := (f32Val (BitVec.ofNat 32 (leAt e 8 4))).mul (f32Val (BitVec.ofNat 32 (leAt e 12 4)))
    if v.isZero then none else some ⟨leAt e 0 1, leAt e 1 1, v⟩

/-- ESC.TERM (R304): the whole list is checked before any term is added. -/
def opEscTerm (n : Nat) (a b : Reg) (pl : Plane) (s : State) : State :=
  let x := s.spindle n
  let cnt := (x.s b).toNat
  if !(x.plane pl).isOpen then s.stopSp n 0x0208
  else if cnt == 0 || decide (1024 < cnt) then s.stopSp n 0x0211 else
  s.orStop n (localAddr (x.s a) 0 1) fun at_ =>
  if 2 ^ 18 < at_ + 16 * cnt then s.stopSp n 0x0305 else
  let bs := s.localRead n at_ (16 * cnt)
  match escListBad bs cnt 0 with
  | some code => s.stopSp n code
  | none =>
    let ps := (cnt + 31) / 32
    if passLimit < (x.plane pl).passes + ps then s.stopSp n 0x0209
    else (s.setSpindle n (x.addPass .esc pl ps (escListTerms bs cnt))).retire n

/-! ### The rows -/

/-- FMM.LDW (R91). -/
def execFmmLdw (n : Nat) (s : State) : Host.Outcome State Fault Refusal :=
  .next (s.issue n fun i => match i with
    | .fmmLdw f a h => some (opLoadBlock n false f a h 0)
    | _ => none)

/-- FMM (R96). -/
def execFmm (n : Nat) (s : State) : Host.Outcome State Fault Refusal :=
  .next (s.issue n fun i => match i with
    | .fmm f a pl xh swap => some (opPass n false f a pl xh swap 0)
    | _ => none)

/-- BMM.LDB (R143). -/
def execBmmLdb (n : Nat) (s : State) : Host.Outcome State Fault Refusal :=
  .next (s.issue n fun i => match i with
    | .bmmLdb f a h red => some (opLoadBlock n true f a h (b2n red))
    | _ => none)

/-- BMM (R147). -/
def execBmm (n : Nat) (s : State) : Host.Outcome State Fault Refusal :=
  .next (s.issue n fun i => match i with
    | .bmm f a pl xh swap red => some (opPass n true f a pl xh swap (b2n red))
    | _ => none)

/-- The terms of a pass are added into its plane. -/
def Spindle.landPass (x : Spindle) (p : Pass) : Spindle :=
  match p.plane with
  | some pl => x.setPlane pl ((x.plane pl).addTerms p.terms)
  | none => x

/-- ARRAY_PASS_RETIRE (R101): the oldest pass is added into its plane and retires; a weight load leaves the input buffer. -/
def execArrayPassRetire (n : Nat) (s : State) : Host.Outcome State Fault Refusal :=
  .next (
    let x := s.spindle n
    match x.passes with
    | [] => s
    | p :: rest =>
      if !s.jobLive || s.paused then s else
      s.setSpindle n (Spindle.landPass { x with passes := rest } p))

/-- ESC.TERM (R304). -/
def execEscTerm (n : Nat) (s : State) : Host.Outcome State Fault Refusal :=
  .next (s.issue n fun i => match i with
    | .escTerm a b pl => some (opEscTerm n a b pl)
    | _ => none)

end Sys2Proof.Machine
end

