-- ==== Sys2Proof/Machine/Convert.lean ====
section
/-!
DEFINITION. CVT: the conversion of a whole tile (R229–R243).
-/
namespace Sys2Proof.Machine

/-- Every tile of a source suffix is accepted by its own code; N4 accepts N4B too (R77, R236). -/
def acceptFmt (src : Fmt) (d : Desc) : Option W16 :=
  if d.format == src.code || (src == .n4 && d.format == 0x02) then none else some 0x0206

/-- The lowest element of an F32 tile that is NaN or infinite (R238). -/
def Tile.nonfinite (t : Tile) : Option Nat :=
  if t.fmt != .f32 then none
  else (List.range 4096).find? fun i => !(f32Finite (BitVec.ofNat 32 (t.code (payPos t.desc.axis i))))

/-- A product or quotient of a source element and its channel's factor, correctly rounded in F32 and held to the finite
range as R235 holds it (R222). A factor that gives no finite number leaves the value free. -/
def rescaleVal (inv : Bool) (f x : W32) : Dy × Rnd :=
  if !(f32Finite f) || (inv && f32IsZero f) then (f32Val (Config.rescaleOpen inv f x), .inexact)
  else if inv then
    let a := f32Val x
    let b := f32Val f
    let n := a.m.natAbs * 2 ^ 240
    let d := b.m.natAbs
    let q : Nat := 2 * (n / d) + b2n (n % d != 0)
    let neg := a.isNeg != b.isNeg
    let r := roundF32 ⟨if neg then -(q : Int) else q, a.e - b.e - 241⟩ .rne 0
    (f32Val r.1, r.2)
  else
    let r := roundF32 ((f32Val x).mul (f32Val f)) .rne 0
    (f32Val r.1, r.2)

/-- The factor of an element's channel in the epoch that a reference names; 1.0 where the tracker has none (R221, R222). -/
def State.chanFactor (s : State) (r : TRef) (t : Tracker) (prev : Bool) (col c : Nat) : W32 :=
  if t.bind.rsMode == 0 then 0x3F800000 else
  match t.bind.channel col c with
  | none => 0x3F800000
  | some e =>
    let x := (s.skein r.skein).channels.get Channel.reset e
    if prev then x.prevFactor else x.factor

/-- A value in F32, for the channel ranges (R220). -/
def inF32 (v : Dy) : W32 := (roundF32 v .rne 0).1

/-- The channel statistics of a tile: per column the least and greatest input and the clipped elements (R220). `vals` is
by element index. -/
def chanStats (vals : Nat → Dy) (clipIdx : List Nat) : List (Nat × W32 × W32 × Nat) :=
  (List.range 64).map fun c =>
    let col := (List.range 64).map fun r => vals (64 * r + c)
    let lo := col.foldl (fun m v => if v.lt m then v else m) (vals c)
    let hi := col.foldl Dy.max (vals c)
    (c, inF32 lo, inF32 hi, (clipIdx.filter fun i => i % 64 == c).length)

/-- The encoder's settings for a format under a tracker (R197–R208). -/
def Tracker.encCfg (t : Tracker) (f : Fmt) (book : Bytes) (mode : Mode) (exp : Nat) : EncCfg :=
  { fmt := f, book := book, mode := mode, current := t.bind.current, trExp := exp, outEn := t.bind.outEn,
    outShift := t.bind.outShift, recompute := t.bind.recompute, spillMax := t.bind.spillMax }

/-- An encoding has reached an outlier for which it must hold entries of the spill pool (R206, R208). -/
def Enc.needsSpill (e : Enc) (cfg : EncCfg) : Bool := e.spill && cfg.spillMax != 0 && decide (32 < e.outliers)

/-- The ply events of an encoding (R225, R226): CLAMP at the first clamp of a tile, REDO_LIMIT for each block that still needed a redo. -/
def State.encEvents (s : State) (k j : Nat) (clamp : Bool) (limit : Nat) : State :=
  let s := if clamp then s.plyEvent k 0 j else s
  (List.range limit).foldl (fun s _ => s.plyEvent k 2 j) s

/-- What CVT has checked before it reads its tracker. -/
structure CvtWork where
  dst : Fmt
  at_ : Nat
  sd : DescSeed
  tile : Tile
  mode : Mode
  word : Nat → Nat
  tref : W64
  resc : Rescale

/-- The source elements by index, and what RESCALE makes of them (R222, R237). -/
def CvtWork.raw (w : CvtWork) : Array Dy := ((List.range 4096).map w.tile.value).toArray

def State.cvtScaled (s : State) (w : CvtWork) (r : TRef) (t : Tracker) (prev : Bool) : Array (Dy × Rnd) :=
  match w.resc with
  | .none => w.raw.map fun v => (v, Rnd.exact)
  | .mul | .inv => ((List.range 4096).map fun i =>
      rescaleVal (w.resc == .inv) (s.chanFactor r t prev w.sd.col (i % 64))
        (BitVec.ofNat 32 (w.tile.code (payPos w.tile.desc.axis i)))).toArray

/-- The encoding of the scaled elements, with the tracker's exponent (R229–R243). A block's inputs are its elements after RESCALE (R201 leaves it
open: DESIGN CHOICE, log entry 137). -/
def CvtWork.encode (w : CvtWork) (t : Tracker) (exp : Nat) (scaled : Array (Dy × Rnd)) : Enc :=
  let axis := w.tile.desc.axis
  let vals : Nat → Dy := fun q => (scaled.getD (elemIdx axis q) (Dy.zero, .exact)).1
  let cfg := t.encCfg w.dst w.sd.book w.mode exp
  let start := Enc.start cfg 0 false
  if w.dst == .f32 then encodeF32 axis vals w.mode w.word start (List.range 4096)
  else encodeBlocks cfg axis vals w.word start (List.range 128)

/-- The image that CVT writes (R239). -/
def CvtWork.image (w : CvtWork) (e : Enc) : Bytes := e.image w.dst w.tile.desc.axis w.sd

/-- The report that CVT makes to its tracker: the encoder's counts and the clipped and vanished elements of the rescale (R194, R220). -/
def CvtWork.report (w : CvtWork) (n : Nat) (t : Tracker) (e : Enc) (scaled : Array (Dy × Rnd)) : Report :=
  let pre := scaled.toList.zipIdx.filter fun p => p.1.2 == .clip
  let gone := (scaled.toList.zip w.raw.toList).filter fun p => p.1.2 == .vanish && !p.2.isZero
  { tref := w.tref, spindle := n,
    counts := { e.counts with clipped := e.counts.clipped + pre.length, vanished := e.counts.vanished + gone.length },
    nonzero := (w.raw.toList.filter fun v => !v.isZero).length, fit := if w.dst == .f32 then 0 else fitHold e.fit,
    col := w.sd.col,
    chans := if t.bind.chCount == 0 then [] else
      chanStats (fun i => w.raw.getD i Dy.zero) (e.clipIdx ++ pre.map (·.2)), stalled := false }

/-- CVT's encoding, output and report, with the tracker's values (R239–R242). -/
def State.cvtEncode (s : State) (n : Nat) (w : CvtWork) (r : TRef) (t : Tracker) (exp : Nat) (prev : Bool) : State :=
  let scaled := s.cvtScaled w r t prev
  let cfg := t.encCfg w.dst w.sd.book w.mode exp
  let e := w.encode t exp scaled
  let finish (s : State) : State :=
    s.orStop n (s.coreWrite n w.at_ (w.image e)) fun s =>
    ((s.encEvents r.skein r.tracker e.clampEvt e.redoLimit).sendReport (w.report n t e scaled)).retire n
  if w.dst != .f32 && e.needsSpill cfg then
    s.reserveSpill n cfg.spillMax fun s => finish (s.releaseSpill n cfg.spillMax)
  else finish s

/-- CVT (R236–R242, R250): operand addresses, RESCALE, the draws, the source, the template's book and the tracker are
looked at in this order, before a byte is written. -/
def opCvt (n : Nat) (dst src : Fmt) (d a b c : Reg) (rnd : Rounding) (resc : Rescale) (s : State) : State :=
  let x := s.spindle n
  if resc != .none && src != .f32 then s.stopSp n 0x0206 else
  s.orStop n (localAddr (x.s d) 0 64) fun at_ =>
  s.orStop n (localAddr (x.s a) 0 64) fun from_ =>
  s.orStop n (localAddr (x.s b) 0 64) fun tmpl =>
  let sd := DescSeed.parse (s.localRead n tmpl 64)
  s.orStop n (s.drawWords n rnd sd) fun word =>
  match s.tileAt n from_ (acceptFmt src) with
  | (.error f, s) => s.stopTile n f
  | (.ok t, s) =>
    match t.nonfinite with
    | some i => s.stopTile n (t.desc.fail 0x0201 i)
    | none =>
      if dst == .n4b && !(bookValid sd.book) then s.stopSp n 0x0204 else
      let tref := x.s c
      s.orStop n (s.tileTracker x.station tref sd.tensor sd.col) fun (r, tr) =>
      let w : CvtWork := ⟨dst, at_, sd, t, rnd.mode, word, tref, resc⟩
      if dst == .f32 && resc == .none then s.cvtEncode n w r tr 0 false
      else s.withEpoch n r tr fun e _ prev => s.cvtEncode n w r tr e prev

/-- CVT.<dst>.<src> (R239). -/
def execCvt (n : Nat) (s : State) : Host.Outcome State Fault Refusal :=
  .next (s.issue n fun i => match i with
    | .cvt dst src d a b c r resc => some (opCvt n dst src d a b c r resc)
    | _ => none)

end Sys2Proof.Machine
end

