-- ==== Sys2Proof/Machine/Acc.lean ====
section
/-!
DEFINITION. The accumulator instructions: opening, rounding, saving, adding and clearing a plane (R112–R136, R302, R303).
-/
namespace Sys2Proof.Machine

/-- ACC.OPEN (R112, R189, R302): the reference is checked and its epoch judged with either anchor source. -/
def opAccOpen (n : Nat) (pl : Plane) (b c : Reg) (asrc : Bool) (s : State) : State :=
  let x := s.spindle n
  if (x.plane pl).isOpen then s.stopSp n 0x0208 else
  s.orStop n (s.refTracker x.station (x.s b)) fun (r, t) =>
  s.withEpoch n r t fun _ anchor _ =>
  let a := if asrc then signedOf 16 (x.s c).toNat else anchor
  (s.setSpindle n (x.setPlane pl { PlaneSt.free with isOpen := true, anchor := a, tref := x.s b })).retire n

/-- Work issued to a plane before (R38, R113, R283). -/
def Spindle.planeBusy (x : Spindle) (pl : Plane) : Bool := x.passes.any fun p => p.plane == some pl

/-- Queued array and escape work up to the last for a plane retires, in order; `fuel` is the number of queued instructions. -/
def Spindle.drainPlane (pl : Plane) : Nat → Spindle → Spindle
  | 0, x => x
  | fuel + 1, x =>
    if !(x.planeBusy pl) then x else
    match x.passes with
    | [] => x
    | p :: rest => Spindle.drainPlane pl fuel (Spindle.landPass { x with passes := rest } p)

/-- An ACC instruction queues behind the array and escape work issued to its plane before it, while its spindle goes on (R38, R283). The
model lets that work retire with the instruction's issue (DESIGN CHOICE, log entry 133). -/
def State.settlePlane (s : State) (n : Nat) (pl : Plane) : State :=
  let x := s.spindle n
  if x.planeBusy pl then s.setSpindle n (x.drainPlane pl x.passes.length) else s

/-- A plane can be tried again at a higher anchor (R117, R118). -/
def PlaneSt.canRetry (p : PlaneSt) : Bool := decide (p.retries < 3) && decide (p.anchor + 16 ≤ 32767)

def PlaneSt.retried (p : PlaneSt) : PlaneSt :=
  { p with acc := [], ovf := false, ovfTerms := 0, drops := 0, passes := 0, anchor := p.anchor + 16, retries := p.retries + 1 }

/-- The status word of a round or save (R119). -/
def accStatus (outcome retries drops : Nat) : W64 := BitVec.ofNat 64 (outcome + 4 * (retries % 4) + 16 * sat32 drops)

/-- A reference with TALLY set (R192, R194). -/
def tallyRef (v : W64) : W64 := v ||| 0x8000

/-- A tally of counts to a plane's tracker. -/
def State.tally (s : State) (n : Nat) (tref : W64) (c : Counts) : State :=
  s.sendReport { tref := tallyRef tref, spindle := n, counts := c, nonzero := 0, fit := 0, col := 0, chans := [],
                 stalled := false }

/-- RETRY: nothing is written, the plane opens again at anchor + 16 (R117). The status gives RETRIES after the increment, and DROPS as 0,
since no attempt has completed (R119 leaves both open here: DESIGN CHOICE, log entry 104). -/
def State.accRetry (s : State) (n : Nat) (pl : Plane) (d : Reg) : State :=
  let x := s.spindle n
  let p := (x.plane pl).retried
  let s := (s.setSpindle n (x.setPlane pl p)).tally n p.tref { Counts.zero with recomputed := 1 }
  s.retireS n d (accStatus 1 p.retries 0)

/-- A saturated plane: accumulators out of range take the largest value of their sign; how many did, and which (R118). -/
def PlaneSt.saturated (p : PlaneSt) : PlaneSt × List Nat :=
  let big := p.acc.filter fun kv => decide (accBound ≤ kv.2.natAbs)
  ({ p with acc := Tbl.mapV (fun v => if accBound ≤ Int.natAbs v then (if v < 0 then -((accBound : Int) - 1) else accBound - 1)
                                      else v) p.acc },
   big.map (·.1))

/-- What one half of a round yields: exponents, codes, side list and counts. -/
structure HalfOut where
  enc : Enc
  counts : Counts
  chans : List (Nat × W32 × W32)
  clipIdx : List Nat

/-- A half written with no plane: zero rows and no counts (R303). No outlier has been met and no policy is fixed: the next half starts under
its own tracker's (R208). -/
def HalfOut.none (cfg : EncCfg) : HalfOut := ⟨Enc.start { cfg with recompute := true } 0 false, Counts.zero, [], []⟩

/-- The exact value at payload position `q` of the output tile, rows 32 half + r being the plane's (R125). -/
def PlaneSt.valueAt (p : PlaneSt) (half q : Nat) : Dy :=
  if q / 2048 == half then ⟨p.acc.get 0 (q % 2048), p.anchor - 160⟩ else Dy.zero

/-- Least and greatest value of each column of a half, in F32 (R220). -/
def halfChans (p : PlaneSt) : List (Nat × W32 × W32) :=
  (List.range 64).map fun c =>
    let col : List Dy := (List.range 32).map fun r => ⟨p.acc.get 0 (64 * r + c), p.anchor - 160⟩
    let lo := col.foldl (fun m v => if v.lt m then v else m) (col.headD Dy.zero)
    let hi := col.foldl Dy.max (col.headD Dy.zero)
    (c, inF32 lo, inF32 hi)

/-- Two halves' ranges joined. -/
def joinHalves (a b : List (Nat × W32 × W32)) : List (Nat × W32 × W32) :=
  if a.isEmpty then b else if b.isEmpty then a
  else (a.zip b).map fun (x, y) => (x.1, f32Min x.2.1 y.2.1, f32Max x.2.2 y.2.2)

/-- Rounds one half of a plane (R125–R128, R118). -/
def roundHalf (f : Fmt) (cfg : EncCfg) (p : PlaneSt) (half : Nat) (word : Nat → Nat) (outliers : Nat) (spilling : Bool)
    (sat : List Nat) (lost : Nat) : HalfOut :=
  let start := Enc.start cfg outliers spilling
  let e := if f == .f32 then encodeF32 0 (p.valueAt half) cfg.mode word start ((List.range 2048).map (· + 2048 * half))
    else encodeBlocks cfg 0 (p.valueAt half) word start ((List.range 64).map (· + 64 * half))
  { enc := e,
    counts := { e.counts with clipped := e.counts.clipped + sat.length + lost, dropped := e.counts.dropped + p.drops },
    chans := halfChans p, clipIdx := e.clipIdx ++ sat.map (· + 2048 * half) }

/-- The open assembly at an image address (R131). -/
def Spindle.assembly (x : Spindle) (at_ : Nat) : Option Assembly := x.asm.find at_

/-- Rows of the assembly table for a round (R131): the code that stops it, if any. -/
def roundRefused (o : Option Assembly) (f : Fmt) (book : Bytes) (half fin : Bool) : Option W16 :=
  if half then
    (if !fin then some 0x0208
     else match o with
       | none => some 0x0208
       | some a => if a.save || a.fmt != f || (f == .n4b && a.book != book) then some 0x0206 else none)
  else if o.isSome then some 0x0208 else none

/-- The image bytes of half 0 that a round without FIN writes: 64 exponents and half the payload. -/
def State.putHalf0 (s : State) (n at_ : Nat) (f : Fmt) (e : Enc) : Except W16 State :=
  let pay := (packCodes f.bits fun q => e.codes.getD q 0).take (f.payloadLen / 2)
  match s.coreWrite n (at_ + 0x40) ((List.range 64).map fun b => BitVec.ofNat 8 (e.exps.getD b 0)) with
  | .error c => .error c
  | .ok s => s.coreWrite n (at_ + 0x1C0) pay

/-- The complete image of a FIN round: half 0 as it stands in memory, or from this round, half 1 from this round. -/
def State.finImage (s : State) (n at_ : Nat) (f : Fmt) (sd : DescSeed) (half : Bool) (o : Option Assembly) (e : Enc) :
    Bytes :=
  if half then
    let old := s.localRead n at_ (0x1C0 + f.payloadLen)
    let exps := ((old.drop 0x40).take 64).toArray
    let pay := (old.drop 0x1C0).toArray
    buildImage f 0 sd (fun b => if b < 64 then (exps.getD b 0).toNat else e.exps.getD b 0)
      (fun q => if q < 2048 then payCode f.bits pay q else e.codes.getD q 0)
      (((o.map (·.side)).getD []) ++ e.side)
  else e.image f 0 sd

/-- Entries that an open assembly's half 0 reserved in the spill pool (R206). -/
def State.heldBy (s : State) (a : Assembly) : Nat :=
  match a.tref with
  | some v => if a.spilling && decide (32 < a.outliers) then (s.trackerOf (TRef.parse v)).bind.spillMax else 0
  | none => 0

/-- Marks written at the end of a round. -/
structure RoundWork where
  f : Fmt
  d : Reg
  at_ : Nat
  sd : DescSeed
  pl : Option Plane
  half : Bool
  fin : Bool
  outcome : Nat
  tref : Option W64

/-- An assembly whose half 0 has nothing to report (R303). -/
def Assembly.empty : Assembly :=
  { save := false, fmt := .f32, book := [], tref := none, counts := Counts.zero, fit := Dy.zero, nonzero := 0,
    outliers := 0, spilling := false, clampEvt := false, clipIdx := [], side := [], chans := [] }

/-- The single report of a tile, made by its FIN round: to half 0's reference where half 0 had a plane, else to the FIN
round's; none where neither had one (R194, R303). The status is written. -/
def State.reportRound (s : State) (n : Nat) (w : RoundWork) (h : HalfOut) (a : Assembly) (status : W64) : State :=
  match a.tref.or w.tref with
  | none => s.retireS n w.d status
  | some v =>
    let clip := a.clipIdx ++ h.clipIdx
    let s := s.sendReport
      { tref := v, spindle := n, counts := a.counts.add h.counts, nonzero := a.nonzero + h.enc.nonzero,
        fit := fitHold (a.fit.max h.enc.fit), col := w.sd.col,
        chans := (joinHalves a.chans h.chans).map fun (c, lo, hi) =>
          (c, lo, hi, (clip.filter fun i => i % 64 == c).length),
        stalled := false }
    s.retireS n w.d status

/-- A round's half is written; FIN completes the image and reports (R131, R206, R303). A saturated plane (R118) is recorded as the SATURATED
event of the tracker's ply unit, whose record carries the tracker, and the output tile's tensor, row and column (DESIGN CHOICE, log entry
103: the SPD page has no such event). CLAMP is raised at the first clamp of the tile, so not again for half 1 (R225). -/
def State.finishRound (s : State) (n : Nat) (w : RoundWork) (h : HalfOut) (reserved : Nat) : State :=
  let x := s.spindle n
  let o := x.assembly w.at_
  let p := match w.pl with | some pl => x.plane pl | none => PlaneSt.free
  let free (s : State) : State := match w.pl with
    | some pl => s.setSpindle n ((s.spindle n).setPlane pl PlaneSt.free)
    | none => s
  let events (s : State) : State :=
    match w.pl with
    | none => s
    | some _ =>
      let r := TRef.parse p.tref
      let first := h.enc.clampEvt && !(w.fin && o.any fun a => a.clampEvt)
      let s := s.encEvents r.skein r.tracker first h.enc.redoLimit
      if w.outcome == 2 then
        s.raiseX (pgPLY r.skein) 1 0 r.tracker
          (some (leBytes 2 r.tracker ++ zeros 2 ++ leBytes 4 w.sd.tensor ++ leBytes 3 w.sd.row ++ leBytes 3 w.sd.col ++ zeros 2))
      else s
  let status := accStatus w.outcome p.retries p.drops
  if !w.fin then
    let a : Assembly :=
      { save := false, fmt := w.f, book := if w.f == .n4b then w.sd.book else [], tref := w.tref, counts := h.counts,
        fit := h.enc.fit, nonzero := h.enc.nonzero, outliers := h.enc.outliers, spilling := h.enc.spill,
        clampEvt := h.enc.clampEvt, clipIdx := h.clipIdx, side := h.enc.side, chans := h.chans }
    s.orStop n (s.putHalf0 n w.at_ w.f h.enc) fun s =>
    let x := s.spindle n
    let s := s.setSpindle n { x with asm := x.asm.put w.at_ a, spillHeld := x.spillHeld + reserved }
    (events (free s)).retireS n w.d status
  else
    let img := s.finImage n w.at_ w.f w.sd w.half o h.enc
    if 2 ^ 18 < w.at_ + img.length then s.stopSp n 0x0305 else
    s.orStop n (s.coreWrite n w.at_ img) fun s =>
    let held := (o.map s.heldBy).getD 0
    let x := s.spindle n
    let s := s.setSpindle n { x with asm := x.asm.del w.at_, spillHeld := x.spillHeld - held }
    let s := events (free (s.releaseSpill n (held + reserved)))
    let a := (o.filter fun a => a.tref.isSome).getD Assembly.empty
    s.reportRound n w h a status

/-- The tracker and epoch of a reference, without TALLY (R303). -/
def sameSpan (a b : W64) : Bool := (a &&& 0xFFFFFFFFFFFF7FFF) == (b &&& 0xFFFFFFFFFFFF7FFF)

/-- A round of a plane that has passed the checks: overflow, tracker, encoding, spill reservation (R117, R118, R127). A retry comes before
the template's tensor and column are held to the tracker, since nothing of the tile is written then (DESIGN CHOICE, log entry 22). The epoch of
the reference is judged at every round that is not to F32, since its encoding takes the tracker's exponent (DESIGN CHOICE, log entry 136). -/
def State.roundPlane (s : State) (n : Nat) (w : RoundWork) (pl : Plane) (mode : Mode) (word : Nat → Nat) : State :=
  let s := s.settlePlane n pl
  let x := s.spindle n
  let p := x.plane pl
  if p.overflowed && p.canRetry then s.accRetry n pl w.d
  else
    let isOver := p.overflowed
    let (q, sat) := if isOver then p.saturated else (p, [])
    let lost := if isOver then p.ovfTerms else 0
    s.orStop n (s.tileTracker x.station p.tref w.sd.tensor w.sd.col) fun (r, t) =>
    let go (exp : Nat) : State :=
      let cfg := t.encCfg w.f w.sd.book mode exp
      let o := (x.assembly w.at_).filter fun _ => w.half
      let h := roundHalf w.f cfg q (b2n w.half) word ((o.map (·.outliers)).getD 0) ((o.map (·.spilling)).getD false) sat lost
      let w := { w with outcome := if isOver then 2 else 0, tref := some p.tref }
      if w.f != .f32 && h.enc.needsSpill cfg && (o.map s.heldBy).getD 0 == 0 then
        s.reserveSpill n cfg.spillMax fun s => s.finishRound n w h cfg.spillMax
      else s.finishRound n w h 0
    if w.f == .f32 then go 0 else s.withEpoch n r t fun e _ _ => go e

/-- ACC.RND (R117–R132, R250, R303). An image that runs past the end of local memory, its extension included, stops with 0x0305 and is not
written (R131 does not say: DESIGN CHOICE, log entry 24). -/
def opAccRnd (n : Nat) (f : Fmt) (d a b : Reg) (pl : Option Plane) (half fin : Bool) (r : Rounding) (s : State) : State :=
  let x := s.spindle n
  s.orStop n (localAddr (x.s a) 0 64) fun at_ =>
  s.orStop n (localAddr (x.s b) 0 64) fun tmpl =>
  let sd := DescSeed.parse (s.localRead n tmpl 64)
  if f == .n4b && !(bookValid sd.book) then s.stopSp n 0x0204
  else if 2 ^ 18 < at_ + 0x1C0 + f.payloadLen then s.stopSp n 0x0305 else
  match roundRefused (x.assembly at_) f sd.book half fin with
  | some code => s.stopSp n code
  | none =>
    s.orStop n (s.drawWords n r sd) fun word =>
    let w : RoundWork := ⟨f, d, at_, sd, pl, half, fin, 0, none⟩
    match pl with
    | none =>
      let zero (s : State) : State := s.finishRound n w (HalfOut.none (Tracker.reset.encCfg f sd.book r.mode 0)) 0
      -- the FIN round's report goes to half 0's tracker, which must hold the tile (R188, R303)
      (match if fin then (x.assembly at_).bind (·.tref) else none with
       | some v => s.orStop n (s.tileTracker x.station v sd.tensor sd.col) fun _ => zero s
       | none => zero s)
    | some p =>
      if !(x.plane p).isOpen then s.stopSp n 0x0208 else
      match (x.assembly at_).bind (·.tref) with
      | some v => if half && !(sameSpan v (x.plane p).tref) then s.stopSp n 0x020C else s.roundPlane n w p r.mode word
      | none => s.roundPlane n w p r.mode word

/-- A plane's contents as one half of a transfer image (R134). -/
def PlaneSt.toXf (p : PlaneSt) : XfHalf := ⟨p.anchor, p.drops, p.passes, p.acc.range 0 0 2048⟩

/-- The header bytes 0x040–0x057 of a transfer image once half 0 has been saved: its anchor, drops, passes and VALID bit; the other half's
fields as they stand (R133, R134). -/
def xfHead0 (old : Bytes) (h : XfHalf) : Bytes :=
  let b := patch old 0 (leBytes 2 (unsignedOf 16 h.anchor))
  let b := patch b 4 (leBytes 4 h.drops)
  let b := patch b 12 [1]
  patch b 16 (leBytes 4 h.passes)

/-- The payload of a saved half. -/
def XfHalf.payload (h : XfHalf) : Bytes := (List.range 2048).flatMap fun i => leBytes 24 (unsignedOf 192 (h.acc.getD i 0))

/-- A save of half 0 without FIN: the half's header fields and payload are written (R134). -/
def State.putXf0 (s : State) (n at_ : Nat) (h : XfHalf) : Except W16 State :=
  match s.coreWrite n (at_ + 0x40) (xfHead0 (s.localRead n (at_ + 0x40) 24) h) with
  | .error c => .error c
  | .ok s => s.coreWrite n (at_ + 0x1C0) h.payload

/-- The transfer image that a FIN save writes: the saved half from its plane, half 0 of an open assembly as it stands in memory, and a half
that was never saved with VALID = 0 (R131, R134). -/
def State.finXf (s : State) (n at_ : Nat) (sd : DescSeed) (half : Bool) (me : XfHalf) : Bytes :=
  if half then buildXf sd (((s.spindle n).asm.find at_).map fun _ => xfHalfOf (s.localRead n at_ 98752) 0) (some me)
  else buildXf sd (some me) none

/-- ACC.SAVE (R117–R120, R131, R134). -/
def opAccSave (n : Nat) (d a b : Reg) (pl : Plane) (half fin : Bool) (s : State) : State :=
  let x := s.spindle n
  let p := x.plane pl
  s.orStop n (localAddr (x.s a) 0 64) fun at_ =>
  s.orStop n (localAddr (x.s b) 0 64) fun tmpl =>
  let sd := DescSeed.parse (s.localRead n tmpl 64)
  let o := x.assembly at_
  if 2 ^ 18 < at_ + 98752 then s.stopSp n 0x0305
  else if (half && !fin) || (!half && o.isSome) then s.stopSp n 0x0208
  else if o.any fun a => !a.save then s.stopSp n 0x0206
  else if !p.isOpen then s.stopSp n 0x0208
  else
    let s := s.settlePlane n pl
    let p := (s.spindle n).plane pl
    if p.overflowed then (if p.canRetry then s.accRetry n pl d else s.stopSp n 0x0209)
    else
    let me := p.toXf
    let done (s : State) : State :=
      let x := s.spindle n
      let s := (s.setSpindle n (x.setPlane pl PlaneSt.free)).tally n p.tref { Counts.zero with dropped := p.drops }
      s.retireS n d (accStatus 0 p.retries p.drops)
    if fin then
      s.orStop n (s.coreWrite n at_ (s.finXf n at_ sd half me)) fun s =>
      let x := s.spindle n
      done (s.setSpindle n { x with asm := x.asm.del at_ })
    else
      s.orStop n (s.putXf0 n at_ me) fun s =>
      let x := s.spindle n
      done (s.setSpindle n { x with asm := x.asm.put at_ { Assembly.empty with save := true } })

/-- ACC.ADDX (R135, R136). Where several stops hold, the plane's state is looked at first, then the address, then the tile's checks, then the
pass limit (the spec gives no order: DESIGN CHOICE, log entry 22). -/
def opAccAddx (n : Nat) (a : Reg) (pl : Plane) (half : Bool) (s : State) : State :=
  let x := s.spindle n
  let p := x.plane pl
  if !p.isOpen then s.stopSp n 0x0208 else
  s.orStop n (localAddr (x.s a) 0 64) fun at_ =>
  match s.xfAt n at_ (b2n half) with
  | (.error f, s) => s.stopTile n f
  | (.ok hs, s) =>
    match hs.getD (b2n half) none with
    | none => s.stopSp n 0x0204
    | some h =>
      let s := s.settlePlane n pl
      let p := (s.spindle n).plane pl
      if passLimit < p.passes + h.passes + 1 then s.stopSp n 0x0209 else
      let ts : List Term := h.acc.zipIdx.filterMap fun (v, i) =>
        if v == 0 then none else some ⟨i / 64, i % 64, ⟨v, h.anchor - 160⟩⟩
      let q := p.addTerms ts
      let q := { q with drops := sat32 (q.drops + h.drops), passes := q.passes + h.passes + 1 }
      (s.setSpindle n ((s.spindle n).setPlane pl q)).retire n

/-- ACC.CLEAR (R112). -/
def opAccClear (n : Nat) (pl : Plane) (s : State) : State :=
  let x := s.spindle n
  if !(x.plane pl).isOpen then s.stopSp n 0x0208
  else
    let s := s.settlePlane n pl
    (s.setSpindle n ((s.spindle n).setPlane pl PlaneSt.free)).retire n

/-! ### The rows -/

/-- ACC.OPEN (R112). -/
def execAccOpen (n : Nat) (s : State) : Host.Outcome State Fault Refusal :=
  .next (s.issue n fun i => match i with
    | .accOpen pl b c asrc => some (opAccOpen n pl b c asrc)
    | _ => none)

/-- ACC.RND (R125). -/
def execAccRnd (n : Nat) (s : State) : Host.Outcome State Fault Refusal :=
  .next (s.issue n fun i => match i with
    | .accRnd f d a b pl half fin r => some (opAccRnd n f d a b pl half fin r)
    | _ => none)

/-- ACC.SAVE (R134). -/
def execAccSave (n : Nat) (s : State) : Host.Outcome State Fault Refusal :=
  .next (s.issue n fun i => match i with
    | .accSave d a b pl half fin => some (opAccSave n d a b pl half fin)
    | _ => none)

/-- ACC.ADDX (R135). -/
def execAccAddx (n : Nat) (s : State) : Host.Outcome State Fault Refusal :=
  .next (s.issue n fun i => match i with
    | .accAddx a pl half => some (opAccAddx n a pl half)
    | _ => none)

/-- ACC.CLEAR (R112). -/
def execAccClear (n : Nat) (s : State) : Host.Outcome State Fault Refusal :=
  .next (s.issue n fun i => match i with
    | .accClear pl => some (opAccClear n pl)
    | _ => none)

end Sys2Proof.Machine
end

