-- ==== Sys2Proof/Machine/Deferral.lean ====
section
/-!
DEFINITION. Deferral records (R171–R183) and the end of a station program on a spindle (R290, R315). A record runs as the
spindle's next instructions: the instruction that starts it keeps its place, and issues again after BMM.DONE.
-/
namespace Sys2Proof.Machine

/-- Local address of slot `i` of the deferral ring (R171). -/
def StationImage.ringAddr (img : StationImage) (i : Nat) : Nat := img.deferBank * 0x4000 + 64 * (i % img.deferDepth)

/-- Generation `a` is `g`, or was held before it. -/
def notAfter (a g : Nat) : Bool := decide ((g + 65536 - a % 65536) % 65536 < 32768)

/-- Records of a skein that a drain of generation `g` waits for (R183). -/
def Skein.drainCount (k : Skein) (g : Nat) : Nat :=
  (k.pending.filter fun kv => notAfter kv.1 g).foldl (fun n kv => n + kv.2) 0

/-- DRAIN clears once no record of its generations is pending (R183). -/
def Skein.endDrain (k : Skein) : Skein := if k.drain && k.drainCount k.drainGen == 0 then { k with drain := false } else k

/-- One record more, or one fewer, pending for a generation (R173, R174). -/
def Skein.pendUp (k : Skein) (g : Nat) : Skein := { k with pending := k.pending.set 0 g (k.pending.get 0 g + 1) }
def Skein.pendDown (k : Skein) (g : Nat) : Skein :=
  Skein.endDrain { k with pending := k.pending.set 0 g (k.pending.get 0 g - 1) }

/-- The spindle enters deferred mode and runs its oldest record next (R174); the record is traced (R653). -/
def State.enterRecord (s : State) (n : Nat) (img : StationImage) (entry : Nat) : State :=
  let x := s.spindle n
  let r := s.localRead n (img.ringAddr x.ringHead) 64
  let args := (List.range 7).map fun i => (BitVec.ofNat 64 (leAt r (8 + 8 * i) 8) : W64)
  let tag := leAt r 4 4
  let s2 := x.regs.s2.setRun 0 16 (args ++ [BitVec.ofNat 64 (leAt r 0 2), BitVec.ofNat 64 tag])
  let s := s.setSpindle n { x with deferred := true, retPc := x.pc, pc := entry, run := .run, wait := .none,
                                   regs := { x.regs with s2 := s2 } }
  s.record (pgSPD n) 0x0130 0 tag (some (r.take 2 ++ zeros 14))

/-- Runs the oldest record if the main program has one and a1 is FREE (R175, R178); `none` where none can run. -/
def State.runRecord (s : State) (n : Nat) : Option State :=
  let x := s.spindle n
  match s.imageOf n with
  | none => none
  | some img =>
    match img.deferEntry with
    | none => none
    | some e => if x.deferred || x.ringCount == 0 || x.a1.isOpen then none else some (s.enterRecord n img e)

/-- A record of a drained generation is next in the ring's run toward the drain's end (R183). -/
def State.mustDrain (s : State) (n : Nat) : Bool :=
  let k := s.skein (skeinOf n)
  k.drain && (s.spindle n).ringGens.any fun g => notAfter g k.drainGen

/-- BMM.DEFER (R173, R180). An unheld DR_GEN stops it before a full ring is looked at, so no record runs then (the spec gives no order: DESIGN
CHOICE, log entry 22). -/
def opDefer (n : Nat) (a : Reg) (s : State) : State :=
  let x := s.spindle n
  match s.imageOf n with
  | none => s.stopSp n 0x0108
  | some img =>
    if img.deferEntry.isNone then s.stopSp n 0x0108 else
    s.orStop n (localAddr (x.s a) 0 1) fun at_ =>
    if 2 ^ 18 < at_ + 64 then s.stopSp n 0x0305 else
    let r := s.localRead n at_ 64
    let g := leAt r 0 2
    if !s.genHeld g then s.stopSp n 0x0410
    else if img.deferDepth ≤ x.ringCount then
      (if x.deferred then s.stopSp n 0x0109
       else match s.runRecord n with
         | some t => t
         | none => s.stopSp n 0x0208)
    else
      let flag := BitVec.ofNat 8 (leAt r 2 1 ||| 1)
      let s := s.localPut n (img.ringAddr (x.ringHead + x.ringCount)) (patch r 2 [flag])
      let x := s.spindle n
      let s := s.setSpindle n { x with ringCount := x.ringCount + 1, ringGens := x.ringGens ++ [g] }
      let s := s.setSkein (skeinOf n) ((s.skein (skeinOf n)).pendUp g)
      s.retire n

/-- BMM.DONE (R174–R176). -/
def opDone (n : Nat) (s : State) : State :=
  let x := s.spindle n
  if !x.deferred then s.stopSp n 0x020F
  else if x.a1.isOpen then s.stopSp n 0x0208
  else
    match s.imageOf n with
    | none => s.stopSp n 0x020F
    | some img =>
      let at_ := img.ringAddr x.ringHead
      let r := s.localRead n at_ 64
      let g := x.ringGens.headD 0
      let s := s.localPut n (at_ + 2) [BitVec.ofNat 8 (leAt r 2 1 / 2 * 2)]
      let x := s.spindle n
      let s := s.setSpindle n { x with deferred := false, ringHead := (x.ringHead + 1) % max 1 img.deferDepth,
                                       ringCount := x.ringCount - 1, ringGens := x.ringGens.drop 1,
                                       bwd := ⟨none, none⟩ }
      let s := s.setSkein (skeinOf n) ((s.skein (skeinOf n)).pendDown g)
      (s.retireTo n x.retPc).count (pgSPD n) 4 1

/-- BMM.FLUSH (R179, R180). -/
def opFlush (n : Nat) (s : State) : State :=
  let x := s.spindle n
  if x.deferred then s.stopSp n 0x0109
  else if x.a1.isOpen then s.stopSp n 0x0208
  else match s.runRecord n with
    | some t => t
    | none => s.retire n

/-- A yield of the main program while DRAIN is set runs the records that the drain waits for before it tests anything (R180, R183). -/
def State.drainFirst (s : State) (n : Nat) (test : State → State) : State :=
  match (if s.mustDrain n then s.runRecord n else none) with
  | some t => t
  | none => test s

/-- The main part of a yield (R178, R180): the condition, then a record of the main program, and else the wait. -/
def State.yieldOn (s : State) (n : Nat) (holds : Bool) (wait : State → State) : State :=
  if holds then s.retire n
  else match s.runRecord n with
    | some t => t
    | none => wait s

/-- The banks that the prologue copies of an image into spindle `n` will target, taken from its list (R347). -/
def State.listedBanks (s : State) (img : StationImage) (n : Nat) : List Nat :=
  img.prologue.flatMap fun e =>
    if img.spindles.getD e.1 4608 == n then
      e.2.flatMap fun (p : PrologueEntry) => match p with
        | .copy src dst => banksOf dst (max 64 (Desc.parse (s.loadNew src 64)).stored)
        | .warm _ => []
    else []

/-- The station's prologue has triggered on a skein and has not been issued there: its knot has reached the trigger value, whatever the knot
has been set to since (R348, R350). -/
def State.prologueDue (s : State) (station : Nat) (t : Station) (k : Nat) : Bool :=
  !(t.issued.contains k) && (t.triggered.contains k || s.waiters.any fun w => w.mark.isSome && w.use == .prologue station k)

/-- Banks of spindle `n` that the station's prologue copies still target, counted from the trigger on (R350). -/
def State.stationBanks (s : State) (n station : Nat) (t : Station) : List Nat :=
  (if s.prologueDue station t (skeinOf n) then s.listedBanks t.img n else [])
    ++ t.copies.flatMap fun c =>
      if t.img.spindles.getD c.sliver 4608 != n then []
      else banksOf c.dst (max 64 (if c.held then c.bytes.length else (Desc.parse (s.loadNew c.src 64)).stored))

/-- The stations whose prologue copies target bank `b` of spindle `n`. -/
def State.copyStations (s : State) (n b : Nat) : List Nat :=
  (s.stations.filter fun t => (s.stationBanks n t.1 t.2).contains b).map (·.1)

/-- Banks of a spindle that prologue copies still target (R350). -/
def State.copyBanks (s : State) (n : Nat) : List Nat := s.stations.flatMap fun t => s.stationBanks n t.1 t.2

/-- At END every bank returns to CORE with SHARE = 0, but those that prologue copies still target (R315, R350); the entries
that assemblies reserved in the spill quota are freed (R206). -/
def State.endSpindle (s : State) (n : Nat) : State :=
  let x := s.spindle n
  let busy := s.copyBanks n
  let banks := x.banks.filter fun b => busy.contains b.1
  let k := s.skein (skeinOf n)
  let s := s.setSkein (skeinOf n) { k with
    spillUsed := k.spillUsed.set 0 x.station (k.spillUsed.get 0 x.station - x.spillHeld) }
  let s := s.setSpindle n { x with run := .ended, wait := .none, banks := banks, asm := [], spillHeld := 0 }
  match s.station x.station with
  | some t => s.setStation x.station { t with slivers := t.slivers.put x.sliver .ended }
  | none => s

/-- END (R290). In deferred mode it would end the program inside a record, and stops as nested deferral does
(DESIGN CHOICE, assumption 7). -/
def opEnd (n : Nat) (s : State) : State :=
  let x := s.spindle n
  if x.a0.isOpen || x.a1.isOpen then s.stopSp n 0x0208
  else if x.deferred then s.stopSp n 0x0109
  else match s.runRecord n with
    | some t => t
    | none =>
      if !x.passes.isEmpty then s.await n .waitArray .array
      else (s.retire n).endSpindle n

end Sys2Proof.Machine
end

