-- ==== Sys2Proof/Machine/Knot.lean ====
section
/-!
DEFINITION. Knots (R309, R340–R344): operations, waiters and their marks, the knot records of the trace, the checks that a
station's or a unit's operation meets, and the events of the generation knots (R397, R432).
-/
namespace Sys2Proof.Machine

def dieOfKnot (k : Nat) : Nat := k / 2048

/-- The number of a requester that is no spindle (R642). -/
def unitReq : Nat := 0x1FFF

/-- The argument of a knot record: knot, operation, requester (R642). -/
def knotArg (k op req : Nat) : Nat := k % 8192 + op % 8 * 2 ^ 13 + req % 8192 * 2 ^ 16

/-- A KNOT_OP record, for a knot declared with TRACE (R344). -/
def State.knotRecord (s : State) (k op : Nat) (operand new : W64) (req : Nat) : State :=
  if (s.knot k).trace then
    s.record (pgKNT (dieOfKnot k)) 0x0100 0 (knotArg k op req) (some (leBytes 8 operand.toNat ++ leBytes 8 new.toNat))
  else s

/-- A waiter's condition, on the value an operation leaves (R309). -/
def Waiter.holds (w : Waiter) (v : W64) : Bool := if w.eq then v == w.value else w.value.ule v

/-- Every unmarked waiter of the knot whose condition holds is marked with the value (R341). -/
def markWaiters (l : List Waiter) (k : Nat) (v : W64) : List Waiter :=
  l.map fun w => if w.knot == k && w.mark.isNone && w.holds v then { w with mark := some v } else w

/-- An event of the generation engine: the raise, and its record with C and the knot's value (R432, R642). -/
def State.genEventF (s : State) (b flags : Nat) (v : W64) : State :=
  let s := s.raiseF pgTRD b flags (if bit flags 0 then 0 else v.toNat)
  s.record pgTRD 0x0140 flags b (some (leBytes 8 s.commits ++ leBytes 8 v.toNat))

def State.genEvent (s : State) (b : Nat) (v : W64) : State := s.genEventF b 0 v

/-- REDO, THIN and UWR raise their events when they change (R395, R432). -/
def State.genWatch (s : State) (k : Nat) (old new : W64) : State :=
  match s.genKnot with
  | none => s
  | some g =>
    if old == new then s
    else if k == g + 5 then s.genEvent 19 new
    else if k == g + 6 then s.genEvent 20 new
    else if k == g + 7 then s.genEvent 21 new
    else s

/-- One operation that changes a knot (R309, R341): the value, the record, the marks. `op` is 0 for ADD and 1 for SET. -/
def State.knotWrite (s : State) (k op : Nat) (operand : W64) (req : Nat) : State :=
  let old := (s.knot k).value
  let new := if op == 0 then old + operand else operand
  let s := s.setKnot k { s.knot k with value := new }
  let s := { s with waiters := markWaiters s.waiters k new }
  (s.knotRecord k op operand new req).genWatch k old new

/-- A knot that the station's image declares (R309, R340). -/
def State.declares (s : State) (station k : Nat) : Bool :=
  decide (k ≤ 8191) && (match s.station station with
    | some t => t.img.knots.any fun d => d.knot == k
    | none => false)

/-- An ADD by a unit that acts for a station (R340). -/
def State.unitAdd (s : State) (k : Nat) (v : W64) : State := s.knotWrite k 0 v unitReq

/-- A spindle's wait on a knot begins; it ends at once where the condition holds (R309). -/
def State.waitKnot (s : State) (n k : Nat) (eq : Bool) (v : W64) (u : WaitUse) : State :=
  let w : Waiter := ⟨n, k, eq, v, u, none⟩
  { s with waiters := s.waiters ++ [w] }

/-- KNOT.ADD to KNOT.RD (R309, R340, R397). -/
def opKnot (n : Nat) (op : KnotOp) (d a b : Reg) (s : State) : State :=
  let x := s.spindle n
  let k := (x.s a).toNat
  let v := x.s b
  if !s.declares x.station k then s.stopSp n 0x0401
  else if s.genMisuse k op v then s.stopSp n 0x0414
  else
    let old := (s.knot k).value
    match op with
    | .add => (s.knotWrite k 0 v n).retireS n d old
    | .set => (s.knotWrite k 1 v n).retireS n d old
    | .rd => (s.knotRecord k 4 v old n).retireS n d old
    | .wge =>
      let s := s.knotRecord k 2 v old n
      if v.ule old then s.retireS n d old
      else (s.waitKnot n k false v (.result d)).await n .waitKnot (.knot k)
    | .weq =>
      let s := s.knotRecord k 3 v old n
      if v == old then s.retireS n d old
      else (s.waitKnot n k true v (.result d)).await n .waitKnot (.knot k)

/-- BMM.YIELD.K (R178, R180, R183). -/
def opYieldK (n : Nat) (a b : Reg) (s : State) : State :=
  let x := s.spindle n
  let k := (x.s a).toNat
  let v := x.s b
  s.drainFirst n fun s =>
  if !s.declares x.station k then s.stopSp n 0x0401
  else
    let old := (s.knot k).value
    let s := s.knotRecord k 2 v old n
    s.yieldOn n (v.ule old) fun s => (s.waitKnot n k false v .proceed).await n .waitKnot (.knot k)

/-! ### Waking (R341) -/

/-- A marked waiter goes on with the value it was marked with. -/
def State.wake (s : State) (w : Waiter) (v : W64) : State :=
  match w.use with
  | .result d => s.retireS w.spindle d v
  | .proceed => s.retire w.spindle
  | .start station sliver =>
    (match s.station station with
     | some t => s.setStation station { t with startMet := t.startMet ++ [sliver] }
     | none => s)
  | .prologue station k =>
    (match s.station station with
     | some t => s.setStation station { t with triggered := t.triggered ++ [k] }
     | none => s)

/-- The first `m` marked waiters of a die are taken off the list, in order. -/
def takeMarked (die : Nat) : Nat → List Waiter → List Waiter × List Waiter
  | _, [] => ([], [])
  | 0, l => ([], l)
  | m + 1, w :: rest =>
    if w.mark.isSome && dieOfKnot w.knot == die then
      let r := takeMarked die m rest
      (w :: r.1, r.2)
    else
      let r := takeMarked die (m + 1) rest
      (r.1, w :: r.2)

/-- KNOT_WAKE (R341): up to 16 marked waiters of the die's knots are woken, in the order in which they began to wait. -/
def execKnotWake (die : Nat) (s : State) : Host.Outcome State Fault Refusal :=
  .next (
    if s.job.state != .loaded || s.paused then s else
    let (woken, rest) := takeMarked die 16 s.waiters
    woken.foldl (fun s w => match w.mark with | some v => s.wake w v | none => s) { s with waiters := rest })

/-! ### Timeouts (R343, R344) -/

/-- A knot wait of a spindle that has reached its timeout: its record, count and event, and the stop (R309, R344). -/
def State.knotTimeout (s : State) (n : Nat) : State :=
  match s.waiters.find? fun w => w.spindle == n && w.mark.isNone &&
      (match w.use with | .result _ | .proceed => true | _ => false) with
  | none => s
  | some w =>
    let pg := pgKNT (dieOfKnot w.knot)
    let (s, cap) := s.trigger 3
    let s := s.record pg 0x0101 (trgFlag cap) (knotArg w.knot (if w.eq then 3 else 2) n)
      (some (leBytes 8 w.value.toNat ++ leBytes 8 (s.knot w.knot).value.toNat))
    let s := (s.count pg 0x50 1).raise pg 0 w.knot
    s.stopSp n 0x0402

/-! ### The rows -/

/-- KNOT.ADD (R309). -/
def execKnotAdd (n : Nat) (s : State) : Host.Outcome State Fault Refusal :=
  .next (s.issue n fun i => match i with
    | .knot .add d a b => some (opKnot n .add d a b)
    | _ => none)

/-- KNOT.SET (R309). -/
def execKnotSet (n : Nat) (s : State) : Host.Outcome State Fault Refusal :=
  .next (s.issue n fun i => match i with
    | .knot .set d a b => some (opKnot n .set d a b)
    | _ => none)

/-- KNOT.WGE (R309). -/
def execKnotWge (n : Nat) (s : State) : Host.Outcome State Fault Refusal :=
  .next (s.issue n fun i => match i with
    | .knot .wge d a b => some (opKnot n .wge d a b)
    | _ => none)

/-- KNOT.WEQ (R309). -/
def execKnotWeq (n : Nat) (s : State) : Host.Outcome State Fault Refusal :=
  .next (s.issue n fun i => match i with
    | .knot .weq d a b => some (opKnot n .weq d a b)
    | _ => none)

/-- KNOT.RD (R309). -/
def execKnotRd (n : Nat) (s : State) : Host.Outcome State Fault Refusal :=
  .next (s.issue n fun i => match i with
    | .knot .rd d a b => some (opKnot n .rd d a b)
    | _ => none)

/-- BMM.YIELD.K (R178). -/
def execBmmYieldK (n : Nat) (s : State) : Host.Outcome State Fault Refusal :=
  .next (s.issue n fun i => match i with
    | .yieldK a b => some (opYieldK n a b)
    | _ => none)

end Sys2Proof.Machine
end

