-- ==== Sys2Proof/Machine/Routes.lean ====
section
/-!
DEFINITION. The mortar links and the fixed routes between the six dies (R25–R29, R31, R50), and the order in which transfers over one
route arrive. Dies are numbered as `pageDie` numbers them: 0–3 C0–C3, 4 Q0, 5 Q1.
-/
namespace Sys2Proof.Machine

/-- The ends of the mortar links ML0–ML7 (R25). -/
def mortarEnds : List (Nat × Nat) := [(0, 1), (2, 3), (0, 2), (1, 3), (4, 0), (4, 2), (5, 1), (5, 3)]

/-- The mortar link that joins two dies, in either order (R25). -/
def mortarLink (a b : Nat) : Option Nat :=
  (List.range 8).find? fun i => mortarEnds[i]? == some (a, b) || mortarEnds[i]? == some (b, a)

def isQuoin (d : Nat) : Bool := decide (4 ≤ d)

/-- The die in the row of compute die `c` that quoin `q` serves: C0 and C2 for Q0, C1 and C3 for Q1. -/
def servedIn (q c : Nat) : Nat := 2 * (c / 2) + (q - 4)

/-- The dies that a route passes, both ends included (R26). Between the quoins bit 9 of the destination device address chooses the row. -/
def routeDies (a b addr : Nat) : List Nat :=
  if a == b then [a]
  else if (mortarLink a b).isSome then [a, b]
  else match isQuoin a, isQuoin b with
    | false, false => [a, 2 * (a / 2) + b % 2, b]
    | true, false => [a, servedIn a b, b]
    | false, true => [a, servedIn b a, b]
    | true, true => let row := 2 * b2n (bit addr 9); [a, servedIn a row, servedIn b row, b]

/-- The mortar links of a route, in the order in which it crosses them (R26). -/
def routeLinks (a b addr : Nat) : List Nat :=
  let ds := routeDies a b addr
  (ds.zip (ds.drop 1)).filterMap fun (x, y) => mortarLink x y

/-- The die of a device address (R30, R355): the half of module memory that a quoin serves lies on that quoin, the secure region on Q0. -/
def dieOfAddr (a : Nat) : Nat :=
  match regionOf a with
  | .stratum d | .descriptors d => d
  | .module => 4 + moduleQuoin a
  | .locals n => dieOfSpindle n
  | .pool k => dieOfSkein k
  | .quoin q => 4 + q
  | .secure | .unlisted => 4
  | .registers => pageDie ((a - registerBase) / 4096)

/-- The route of an access to a register address from the management controller in charge: the one on Q0, or the standby on Q1 (R31, R50). The
uncore of every die on it is powered whenever PG is high, on a die with fused-off units too (R28, R32). -/
def State.pageRoute (s : State) (addr : Nat) : List Nat :=
  routeLinks (if s.ctlOnQ1 then 5 else 4) (pageDie ((addr - registerBase) / 4096)) addr

/-- The route by which the standby controller on Q1 reaches the management port and the services of Q0 (R31). -/
def standbyRoute (addr : Nat) : List Nat := routeLinks 5 4 addr

/-! ### Order on a route (R27) -/

/-- A transfer has been issued: it joins those under way, with the dies that it passes. -/
def State.depart (s : State) (n : Nat) (prologue : Bool) (slot src dst : Nat) : State :=
  { s with transit := s.transit ++ [⟨n, prologue, slot, routeDies (dieOfAddr src) (dieOfAddr dst) dst⟩] }

/-- No transfer that was issued before on the same route is still under way (R27). -/
def State.mayArrive (s : State) (n : Nat) (prologue : Bool) (slot : Nat) : Bool :=
  match s.transit.find? fun t => t.is n prologue slot with
  | none => true
  | some t => ((s.transit.find? fun u => u.path == t.path).map fun u => u.is n prologue slot) == some true

/-- A prologue copy that was issued before is on its way over the route from `src` to `dst`. An own transfer over this route waits for it,
since it must arrive after it (R27). -/
def State.routeBusy (s : State) (src dst : Nat) : Bool :=
  s.transit.any fun t => t.prologue && t.path == routeDies (dieOfAddr src) (dieOfAddr dst) dst

/-- A transfer has arrived. -/
def State.arrive (s : State) (n : Nat) (prologue : Bool) (slot : Nat) : State :=
  { s with transit := s.transit.filter fun t => !(t.is n prologue slot) }

end Sys2Proof.Machine
end

