-- ==== Sys2Proof/Machine/Scalar.lean ====
section
/-!
DEFINITION. The scalar instructions of a station program (R278, R290–R292, R317–R321), and the deferral instructions.
-/
namespace Sys2Proof.Machine

/-! ### Local loads, stores and atomics (R290, R291, R313, R317) -/

def opLd (n : Nat) (k : LdKind) (d a : Reg) (imm : BitVec 38) (s : State) : State :=
  s.orStop n (localAddr ((s.spindle n).s a) imm.toInt k.size) fun p =>
  s.retireS n d (k.extend (leNat (s.localRead n p k.size)))

def opSt (n : Nat) (k : StKind) (d a : Reg) (imm : BitVec 38) (s : State) : State :=
  let x := s.spindle n
  s.orStop n (localAddr (x.s a) imm.toInt k.size) fun p =>
  s.orStop n (s.coreWrite n p (leBytes k.size (x.s d).toNat)) fun s => s.retire n

def opAtom (n : Nat) (op : AtomOp) (d a b : Reg) (s : State) : State :=
  let x := s.spindle n
  s.orStop n (localAddr (x.s a) 0 op.size) fun p =>
  let (old, new) := op.apply (leNat (s.localRead n p op.size)) (x.s b)
  s.orStop n (s.coreWrite n p (leBytes op.size new)) fun s => s.retireS n d old

/-! ### Special registers (R278) -/

/-- The value of a special register; a number that is not listed reads zero. -/
def State.special (s : State) (n sr : Nat) : W64 :=
  let x := s.spindle n
  BitVec.ofNat 64 (
    if sr == 0 then x.sliver else if sr == 1 then x.nsliver else if sr == 2 then x.station
    else if sr == 3 then s.stamp (dieOfSpindle n) else if sr == 4 then x.xstat.toNat
    else if sr == 5 then b2n x.deferred else 0)

/-- MOVS; reading SR_XSTAT clears its sticky bits. -/
def opMovs (n : Nat) (d : Reg) (sr : BitVec 5) (s : State) : State :=
  let v := s.special n sr.toNat
  let x := s.spindle n
  let s := if sr == 4 then s.setSpindle n { x with xstat := x.xstat &&& 3 } else s
  s.retireS n d v

/-! ### Remote accesses (R292, R313, R314, R318–R321) -/

/-- The code regions of the loaded stations on a skein: offset and length in its pool (R280). -/
def State.codeAt (s : State) (k off len : Nat) : Bool :=
  s.stations.any fun t => t.2.img.spindles.any (fun n => skeinOf n == k)
    && decide (t.2.img.codeBase < off + len) && decide (off < t.2.img.codeBase + t.2.img.codeLen)

/-- The address of a remote access, or the code of its stop: an address in no range of the map; one in another range, or a
store or atomic into a code region; one that the variant does not back; one that is not aligned (R291, R292). -/
def State.remoteAddr (s : State) (base : W64) (imm : BitVec 28) (size : Nat) (write : Bool) : Except W16 Nat :=
  let a := unsignedOf 64 ((base.toNat : Int) + imm.toInt)
  match regionOf a with
  | .unlisted => .error 0x0302
  | .locals _ => if !s.backed a then .error 0x0302 else if a % size != 0 then .error 0x0306 else .ok a
  | .pool k =>
    if write && s.codeAt k (a - poolBase k) size then .error 0x0305
    else if !s.backed a then .error 0x0302 else if a % size != 0 then .error 0x0306 else .ok a
  | _ => .error 0x0305

/-- A foreign request that bank ownership refuses: the target's page raises BANK_REFUSED and the requester stops (R314,
R322). -/
def State.refuseForeign (s : State) (n target : Nat) : State :=
  (s.raise (pgSPD target) 2 n).stopSp n 0x0304

/-- The port of a skein's exchange bank that serves a spindle (R318). -/
def xbPort (n k : Nat) : Nat := if skeinOf n == k && decide (n % 64 < 32) then 0 else 1

/-- The port that serves the streaming engine of spindle `n`'s skein (R318). -/
def xbEnginePort (n k : Nat) : Nat := if skeinOf n == k then 0 else 1

/-- The words that two accesses share in one cycle: the first one and how many. A port serves up to 64 aligned bytes a cycle, so they lie in
one block of 8 words, the first that the accesses share (R318; log entry 32). -/
def XbAcc.shared (p c : XbAcc) : Nat × Nat :=
  let lo := max p.first c.first
  (lo, min (8 * (lo / 8 + 1)) (min (p.first + p.words) (c.first + c.words)) - lo)

/-- What a collision with the previous access of the bank does (R319): the colliding words, whether this access sees BUSY and TORN, and
whether the previous one sees TORN. Port 0's access is the earlier one. -/
structure Collision where
  first : Nat
  words : Nat
  busy : Bool
  torn : Bool
  prevTorn : Bool
deriving DecidableEq, Repr, Inhabited

def Collision.none : Collision := ⟨0, 0, false, false, false⟩

def xbCollide (prev : Option XbAcc) (same : Bool) (cur : XbAcc) : Collision :=
  match prev with
  | none => Collision.none
  | some p =>
    let (f, w) := p.shared cur
    if !(same && p.port == 0 && cur.port == 1 && w != 0) then Collision.none
    else if p.atomic || cur.atomic then ⟨f, w, true, false, false⟩
    else match p.write, cur.write with
      | false, false => ⟨f, w, false, false, false⟩
      | true, false => ⟨f, w, true, true, false⟩
      | false, true => ⟨f, w, true, false, true⟩
      | true, true => ⟨f, w, true, false, false⟩

/-- SR_XSTAT and the counters of a spindle after an access of its own (R321). -/
def State.seen (s : State) (n : Nat) (busy torn : Bool) : State :=
  let x := s.spindle n
  let s := s.setSpindle n { x with xstat := xstatAfter x.xstat busy torn }
  let s := if busy then s.count (pgSPD n) 2 1 else s
  if torn then s.count (pgSPD n) 3 1 else s

/-- Records an exchange-bank access: SR_XSTAT and the counters (R319, R321). Where a spindle's access is torn the answer is its free value; a
streaming engine reads a torn word once more, after the write, and so delivers what the bank holds then. -/
def State.exchange (s : State) (k : Nat) (same : Bool) (cur : XbAcc) : State × Option W64 :=
  let c := xbCollide (s.skein k).xbLast same cur
  let s := s.setSkein k { s.skein k with xbLast := some cur }
  let s := if c.words == 0 then s else s.count (pgSKN k) 0x110 c.words
  if cur.engine then (s, none) else
  let s := s.seen cur.spindle c.busy c.torn
  if c.torn then
    let (i, s) := s.draw
    (s, some (Config.torn i))
  else (s, none)

/-- A prologue copy of spindle `n` to `at_` that is on its way has the bytes `bs` from offset `off` on; one that has landed has them in memory. -/
def State.patchCopy (s : State) (n at_ off : Nat) (bs : Bytes) : State :=
  let mine (img : StationImage) (c : PrologueXfer) : Bool := c.held && c.dst == at_ && img.spindles.getD c.sliver 4608 == n
  if s.stations.any fun t => t.2.copies.any (mine t.2.img) then
    { s with stations := s.stations.mapV fun (t : Station) =>
        { t with copies := t.copies.map fun (c : PrologueXfer) => if mine t.img c then { c with bytes := patch c.bytes off bs } else c } }
  else s.localPut n (at_ + off) bs

/-- The turn of spindle `n` that has not retired has the bytes `bs` from offset `off` on, and is made again (R321). -/
def Spindle.patchTurn (x : Spindle) (off : Nat) (bs : Bytes) : Spindle :=
  match x.own with
  | some o => { x with own := some { o with turn := o.turn.map fun (j : TurnJob) => { j with bytes := patch j.bytes off bs, torn := true } } }
  | none => x

/-- The earlier read of a collision (R319–R321): a spindle's returns undefined data and sees TORN; a streaming engine reads the colliding
words once more and delivers what the bank holds now. -/
def State.tearPrevious (s : State) (prev : XbAcc) (c : Collision) : State :=
  let off := 8 * (c.first - prev.first)
  let now := s.load (8 * c.first) (8 * c.words)
  match prev.dest with
  | .image at_ => s.localPut prev.spindle (at_ + off) now
  | .copy at_ => s.patchCopy prev.spindle at_ off now
  | .turn => s.setSpindle prev.spindle ((s.spindle prev.spindle).patchTurn off now)
  | .none => s
  | .reg kind d =>
    let (i, s) := s.draw
    State.seen (s.setSpindle prev.spindle ((s.spindle prev.spindle).setS d (kind.extend (Config.torn i).toNat))) prev.spindle false true

/-- The 8-byte words that `len` bytes from `a` on touch. -/
def wordsOf (a len : Nat) : Nat := (a + len + 7) / 8 - a / 8

/-- The outcome of an access that reaches an exchange bank, or the state unchanged for any other address. A write has landed already. -/
def State.exchangeAt (s : State) (n a len : Nat) (engine same write atomic : Bool) (dest : XbDest) : State × Option W64 :=
  match regionOf a with
  | .pool k =>
    if a < exchangeBase k then (s, none)
    else
      let cur : XbAcc := ⟨n, engine, if engine then xbEnginePort n k else xbPort n k, a / 8, wordsOf a len, write, atomic, dest⟩
      let prev := (s.skein k).xbLast
      let c := xbCollide prev same cur
      let (s, t) := s.exchange k same cur
      match c.prevTorn, prev with
      | true, some p => (s.tearPrevious p c, t)
      | _, _ => (s, t)
  | _ => (s, none)

/-- The address lies in a skein's exchange bank (R317). -/
def inExchange (a : Nat) : Bool := match regionOf a with | .pool k => decide (exchangeBase k ≤ a) | _ => false

/-- An access of a streaming engine whose row has no word on its cycle: whether it comes in the same cycle as the bank's last access is a free
value (log entry 32). `n` is the spindle that it is made for, 4608 for the queue engine, which stands outside every skein. -/
def State.engineAt (s : State) (n a len : Nat) (write : Bool) (dest : XbDest) : State :=
  if !(inExchange a) then s else
  let (i, s) := s.draw
  (s.exchangeAt n a len true (Config.sameCycle i) write false dest).1

/-- LD.D. -/
def opLdD (n : Nat) (same : Bool) (k : LdKind) (d a : Reg) (imm : BitVec 28) (s : State) : State :=
  s.orStop n (s.remoteAddr ((s.spindle n).s a) imm k.size false) fun p =>
  let go (s : State) : State :=
    let (s, torn) := s.exchangeAt n p k.size false same false false (.reg k d)
    s.retireS n d (k.extend ((torn.map (·.toNat)).getD (leNat (s.load p k.size))))
  match regionOf p with
  | .locals m =>
    if m == n || (s.spindle m).foreignRead .remote (p - localBase m) k.size then go s else s.refuseForeign n m
  | _ => go s

/-- ST.D. -/
def opStD (n : Nat) (same : Bool) (k : StKind) (a b : Reg) (imm : BitVec 28) (s : State) : State :=
  let x := s.spindle n
  let bs := leBytes k.size (x.s b).toNat
  s.orStop n (s.remoteAddr (x.s a) imm k.size true) fun p =>
  match regionOf p with
  | .locals m =>
    let o := p - localBase m
    let ok := if m == n then (s.spindle m).ownWrite .remote o k.size else (s.spindle m).foreignWrite .remote o k.size
    if ok then (s.localPut m o bs).retire n
    else if m == n then s.stopSp n 0x0304 else s.refuseForeign n m
  | _ =>
    ((s.poke p bs).exchangeAt n p k.size false same true false .none).1.retire n

/-- ATOM.D. -/
def opAtomD (n : Nat) (same : Bool) (op : AtomOp) (d a b : Reg) (imm : BitVec 28) (s : State) : State :=
  let x := s.spindle n
  s.orStop n (s.remoteAddr (x.s a) imm op.size true) fun p =>
  let (old, new) := op.apply (leNat (s.load p op.size)) (x.s b)
  let bs := leBytes op.size new
  match regionOf p with
  | .locals m =>
    let o := p - localBase m
    if (if m == n then (s.spindle m).owns .remote o op.size else (s.spindle m).foreignWrite .remote o op.size) then (s.localPut m o bs).retireS n d old
    else if m == n then s.stopSp n 0x0304 else s.refuseForeign n m
  | _ =>
    ((s.poke p bs).exchangeAt n p op.size false same true true .none).1.retireS n d old

/-! ### The rows -/

/-- ADD to MAX with register b (R290). -/
def execScalarAlu (n : Nat) (s : State) : Host.Outcome State Fault Refusal :=
  .next (s.issue n fun i => match i with
    | .alu op d a b => some fun s => s.retireS n d (aluEval op ((s.spindle n).s a) ((s.spindle n).s b))
    | _ => none)

/-- The same with IMM38, sign-extended, in place of b (R290). -/
def execAluImmediate (n : Nat) (s : State) : Host.Outcome State Fault Refusal :=
  .next (s.issue n fun i => match i with
    | .aluImm op d a imm => some fun s => s.retireS n d (aluEval op ((s.spindle n).s a) (imm.signExtend 64))
    | _ => none)

/-- LI (R290). -/
def execLi (n : Nat) (s : State) : Host.Outcome State Fault Refusal :=
  .next (s.issue n fun i => match i with
    | .li d imm => some fun s => s.retireS n d (imm.signExtend 64)
    | _ => none)

/-- LD (R290, R291). -/
def execLd (n : Nat) (s : State) : Host.Outcome State Fault Refusal :=
  .next (s.issue n fun i => match i with
    | .ld k d a imm => some (opLd n k d a imm)
    | _ => none)

/-- ST (R290, R291, R313). -/
def execSt (n : Nat) (s : State) : Host.Outcome State Fault Refusal :=
  .next (s.issue n fun i => match i with
    | .st k d a imm => some (opSt n k d a imm)
    | _ => none)

/-- LD.D (R292). -/
def execLdD (n : Nat) (same : Bool) (s : State) : Host.Outcome State Fault Refusal :=
  .next (s.issue n fun i => match i with
    | .ldD k d a imm => some (opLdD n same k d a imm)
    | _ => none)

/-- ST.D (R292). -/
def execStD (n : Nat) (same : Bool) (s : State) : Host.Outcome State Fault Refusal :=
  .next (s.issue n fun i => match i with
    | .stD k a b imm => some (opStD n same k a b imm)
    | _ => none)

/-- ATOM.D (R292, R317). -/
def execAtomD (n : Nat) (same : Bool) (s : State) : Host.Outcome State Fault Refusal :=
  .next (s.issue n fun i => match i with
    | .atomD op d a b imm => some (opAtomD n same op d a b imm)
    | _ => none)

/-- ATOM (R290, R317). -/
def execAtom (n : Nat) (s : State) : Host.Outcome State Fault Refusal :=
  .next (s.issue n fun i => match i with
    | .atom op d a b => some (opAtom n op d a b)
    | _ => none)

/-- A taken branch adds 8 · IMM28 to the PC (R290). -/
def execConditionalBranch (n : Nat) (s : State) : Host.Outcome State Fault Refusal :=
  .next (s.issue n fun i => match i with
    | .branch c a b imm => some fun s =>
      let x := s.spindle n
      if condHolds c (x.s a) (x.s b) then s.retireTo n (unsignedOf 64 ((x.pc : Int) + 8 * imm.toInt)) else s.retire n
    | _ => none)

/-- JAL (R290). -/
def execJal (n : Nat) (s : State) : Host.Outcome State Fault Refusal :=
  .next (s.issue n fun i => match i with
    | .jal d imm => some fun s =>
      let x := s.spindle n
      (s.setSpindle n (x.setS d (BitVec.ofNat 64 (x.pc + 8)))).retireTo n (unsignedOf 64 ((x.pc : Int) + 8 * imm.toInt))
    | _ => none)

/-- JR (R280, R290): the target is read before d is written. -/
def execJr (n : Nat) (s : State) : Host.Outcome State Fault Refusal :=
  .next (s.issue n fun i => match i with
    | .jr d a => some fun s =>
      let x := s.spindle n
      (s.setSpindle n (x.setS d (BitVec.ofNat 64 (x.pc + 8)))).retireTo n (x.s a).toNat
    | _ => none)

/-- MOVS (R278). -/
def execMovs (n : Nat) (s : State) : Host.Outcome State Fault Refusal :=
  .next (s.issue n fun i => match i with
    | .movs d sr => some (opMovs n d sr)
    | _ => none)

/-- END (R290). -/
def execEndStation (n : Nat) (s : State) : Host.Outcome State Fault Refusal :=
  .next (s.issue n fun i => match i with
    | .endProg => some (opEnd n)
    | _ => none)

/-- BMM.DEFER (R173). -/
def execBmmDefer (n : Nat) (s : State) : Host.Outcome State Fault Refusal :=
  .next (s.issue n fun i => match i with
    | .bmmDefer a => some (opDefer n a)
    | _ => none)

/-- BMM.DONE (R174). -/
def execBmmDone (n : Nat) (s : State) : Host.Outcome State Fault Refusal :=
  .next (s.issue n fun i => match i with
    | .bmmDone => some (opDone n)
    | _ => none)

/-- BMM.FLUSH (R179). -/
def execBmmFlush (n : Nat) (s : State) : Host.Outcome State Fault Refusal :=
  .next (s.issue n fun i => match i with
    | .bmmFlush => some (opFlush n)
    | _ => none)

end Sys2Proof.Machine
end

