-- ==== Sys2Proof/Machine/Stream.lean ====
section
/-!
DEFINITION. The streaming engine (R45, R306–R308, R345–R350): the device addresses that a transfer reaches, reads with UNCORR,
the transfer quota, delivery into local memory, and the prologue copies.
-/
namespace Sys2Proof.Machine

/-! ### Device addresses of a transfer (R308, R313, R314, R543, R589, R653, R655) -/

def overlaps (a n b m : Nat) : Bool := decide (a < b + m) && decide (b < a + n)

/-- A range meets the extended trace store while it is on, or the dump buffer once its base names module memory (R653, R655). -/
def State.inTraceRange (s : State) (a n : Nat) : Bool :=
  (s.isX && s.trace.xtEn && overlaps a n s.trace.xtBase (16 * xtDepth))
    || (decide (moduleBase ≤ s.trace.dumpBase) && overlaps a n s.trace.dumpBase (48 * 2 ^ 20))

/-- A range meets the sag staging region or the treadle area (R543, R589). -/
def inStaging (a n : Nat) : Bool := overlaps a n stagingBase (treadleAreaEnd - stagingBase)

/-- Ranges that no station may touch. -/
def State.reserved (s : State) (a n : Nat) : Bool := inStaging a n || s.inTraceRange a n

/-- A range meets the code region of a loaded station (R280). -/
def State.codeHit (s : State) (a n : Nat) : Bool :=
  s.stations.any fun t => t.2.img.spindles.any fun m =>
    overlaps a n (poolBase (skeinOf m) + t.2.img.codeBase) t.2.img.codeLen

/-- A region that a transfer may name (R308). -/
def Region.streamed : Region → Bool
  | .stratum _ | .module | .locals _ | .pool _ | .quoin _ => true
  | _ => false

/-- One end of a range: in no listed range 0x0302, in another range 0x0305, not backed 0x0302. -/
def State.endCheck (s : State) (a : Nat) : Option W16 :=
  match regionOf a with
  | .unlisted => some 0x0302
  | r => if !r.streamed then some 0x0305 else if !s.backed a then some 0x0302 else none

/-- The code of the stop that a transfer's range meets, in the order of R292: unlisted, of another class, not backed, not on a
64-byte boundary. -/
def State.deviceCheck (s : State) (a n : Nat) (write : Bool) : Option W16 :=
  match s.endCheck a with
  | some c => some c
  | none =>
    match s.endCheck (a + n - 1) with
    | some c => some c
    | none =>
      if s.reserved a n || (write && s.codeHit a n) then some 0x0305
      else if a % 64 != 0 then some 0x0306 else none

/-- The spindles, local offsets and lengths that a range of local memory touches. -/
def localParts (a n : Nat) : List (Nat × Nat × Nat) :=
  match regionOf a with
  | .locals m =>
    let off := a - localBase m
    if off + n ≤ 0x40000 then [(m, off, n)] else [(m, off, 0x40000 - off), (m + 1, 0, n - (0x40000 - off))]
  | _ => []

/-- The first spindle whose banks refuse the streaming engine's access for spindle `n` (R313, R694). -/
def State.refusing (s : State) (n a len : Nat) (write : Bool) : Option Nat :=
  ((localParts a len).find? fun (m, off, k) =>
    let y := s.spindle m
    !(if m == n then !write || y.ownWrite .stream off k
      else if write then y.foreignWrite .stream off k else y.foreignRead .stream off k)).map (·.1)

/-- Carries on with an access of the streaming engine for spindle `n`, or stops its station (R308, R314). -/
def State.admitted (s : State) (n a len : Nat) (write : Bool) (k : State → State) : State :=
  match s.deviceCheck a len write with
  | some code => s.stopSp n code
  | none =>
    match s.refusing n a len write with
    | some m => if m == n then s.stopSp n 0x0304 else s.refuseForeign n m
    | none => k s

/-- Bytes written at a device address: local memory loses the marks of the images they touch, DRAM follows the snapshot pages. -/
def State.devicePut (s : State) (a : Nat) (bs : Bytes) (spindle : Option Nat) : State :=
  match localParts a bs.length with
  | [] => s.store a bs spindle
  | parts => (parts.foldl (fun (s, rest) (m, off, k) => (s.localPut m off (rest.take k), rest.drop k)) (s, bs)).1

/-- Some word of the range reads with a single-bit error (R358, R362). -/
def softIn (a n w : Nat) : Bool := decide (8 * w < a + n) && decide (a < 8 * w + 8)

/-- What a demand read of a DRAM range counts: on a stratum page the words corrected and the lines delivered with UNCORR, on a
module-memory page the reads corrected and those whose reissue failed as well, each by the 64 bytes of one access; the UNCORR event comes
with either page's count of them (R358, R361, R362, R389, R390). Nothing is written back, and an error of a link does not stay. -/
def State.demandRead (s : State) (a n : Nat) : State :=
  let lines := s.bad.filter fun l => decide (64 * l < a + n) && decide (a < 64 * l + 64)
  let words := s.soft.filter (softIn a n)
  if lines.isEmpty && words.isEmpty then s else
  match regionOf a with
  | .stratum d | .descriptors d =>
    let s := (s.count (pgSTR d) 0x4C words.length).count (pgSTR d) 0x50 lines.length
    lines.foldl (fun s l => s.raise (pgSTR d) 0 (64 * l)) s
  | .module =>
    let p := pgLPD (moduleQuoin a)
    let s := { s with soft := s.soft.filter fun w => !(softIn a n w) }
    let s := (s.count p 0x48 ((words.map (· / 8)).eraseDups).length).count p 0x4C lines.length
    lines.foldl (fun s l => s.raise p 0 (64 * l)) s
  | _ => s

/-- The first byte of a range that arrives with UNCORR, as an offset of its line (R358, R367). -/
def State.uncorrAt (s : State) (a n : Nat) : Option Nat :=
  ((s.bad.filter fun l => decide (64 * l < a + n) && decide (a < 64 * l + 64)).map fun l => 64 * l - a).min?

/-- Where a consumer of tiles counts its retries, and who it is: the page with TILE_RETRY and its counter and event, the unit type and the
instance (R365, R367). -/
structure Consumer where
  page : Nat
  key : Nat
  evt : Nat
  unit : Nat
  inst : Nat

/-- A spindle, a skein's streaming engine or a sampling unit of a compute die counts on its stratum page. -/
def Consumer.onDie (die unit inst : Nat) : Consumer := ⟨pgSTR die, 0x54, 1, unit, inst⟩

/-- An image failed step 1 or came with UNCORR: the first failure is counted, the second fetch reads the same bytes, and the failure records
what R367 lists. -/
def State.refetch (s : State) (c : Consumer) (a : Nat) (img : Bytes) : TileFail × State :=
  let f := (Desc.parse img).fail 0x0301 0
  (f.noteCrc img a c.unit c.inst (s.uncorrAt a img.length),
   ((s.demandRead a img.length).count c.page c.key 1).raise c.page c.evt f.tensor)

/-- A tile that a unit consumes from memory (R364–R366). -/
def State.consume (s : State) (c : Consumer) (a : Nat) (accept : Desc → Option W16) : Except TileFail Tile × State :=
  let len := (Desc.parse (s.loadNew a 64)).stored
  let img := s.loadNew a len
  let bad := s.uncorr a len
  let s := s.demandRead a len
  if bad then (let (f, s) := s.refetch c a img; (.error f, s)) else
  match checkTile img accept with
  | .ok t => (.ok t, s)
  | .error f => if f.code == 0x0301 then (let (f, s) := s.refetch c a img; (.error f, s)) else (.error f, s)

/-- Step 1 of the checks at use on an image that a streaming engine reads at `a` for spindle `n`'s local memory, with the second fetch from
the same address (R102, R364–R366). The other checks are made when the image is used (log entry 110). -/
def State.arrival (s : State) (n a : Nat) (img : Bytes) : Except TileFail State × State :=
  let bad := s.uncorr a img.length
  let s := s.demandRead a img.length
  let wrong := match checkHead img with | .error f => f.code == 0x0301 | .ok _ => false
  if bad || wrong then (let (f, s) := s.refetch (Consumer.onDie (dieOfSpindle n) 0x32 n) a img; (.error f, s))
  else (.ok s, s)

/-! ### The quota and the route (R27, R45, R345) -/

/-- The transfer goes on, unless an earlier copy on its route is on its way; then its instruction waits (R27). -/
def State.onRoute (s : State) (n src dst : Nat) (w : Wait) (k : State → State) : State :=
  if s.routeBusy src dst then s.await n .waitTransfer w else k s

/-- An own transfer takes a slot of its station's quota in the skein; beyond the quota it waits. A wait inside a transfer
holds its slot already. -/
def State.takeQuota (s : State) (n : Nat) (k : State → State) : State :=
  let x := s.spindle n
  let sk := s.skein (skeinOf n)
  match x.wait with
  | .pull _ | .push _ => k s
  | _ =>
    let quota := ((s.station x.station).map fun t => t.img.quota.get 0 (skeinOf n)).getD 0
    if sk.quotaUsed.get 0 x.station < quota then
      k (s.setSkein (skeinOf n) { sk with quotaUsed := sk.quotaUsed.set 0 x.station (sk.quotaUsed.get 0 x.station + 1) })
    else
      let s := if x.wait == .quota then s else s.count (pgSKN (skeinOf n)) 3 1
      s.await n .waitTransfer .quota

/-- A stop of a sliver that does not run: its spindle's page latches the code (R329, R349). -/
def State.stopSliver (s : State) (station sliver n : Nat) (f : TileFail) : State :=
  let s := s.latchErr (pgSPD n) f.code 0
  let s := s.raise (pgSPD n) 0 0
  s.stopJob { StopRec.none with code := f.code, station := station, spindle := n, sliver := sliver, tensor := f.tensor, row := f.row,
                                col := f.col, index := f.index, crc := f.crc }

/-- The checks of a prologue copy before it reads, those of the PULL.A that it is carried out as (R291, R308, R313, R347). A bank that
refuses it raises BANK_REFUSED on its own spindle's page (R322). -/
def State.copyChecks (s : State) (station n : Nat) (c : PrologueXfer) (k : Nat → State) : State :=
  let stop (s : State) (code : W16) : State := s.stopSliver station c.sliver n (TileFail.ofCode code)
  match localAddr (BitVec.ofNat 64 c.dst) 0 64 with
  | .error code => stop s code
  | .ok _ =>
    let len := (Desc.parse (s.loadNew c.src 64)).stored
    match s.deviceCheck c.src len false, s.refusing n c.src len false with
    | some code, _ => stop s code
    | none, some m => stop (s.raise (pgSPD m) 2 n) 0x0304
    | none, none => if 2 ^ 18 < c.dst + len then stop s 0x0305 else k len

/-- The first copy of a station in a skein that waits for a slot of its quota takes one and reads its source (R45, R347). -/
def State.issueCopy (s : State) (k station : Nat) : State :=
  match s.station station with
  | none => s
  | some t =>
    let sk := s.skein k
    let here (c : PrologueXfer) : Bool := !c.held && skeinOf (t.img.spindles.getD c.sliver 0) == k
    match t.copies.find? here with
    | none => s
    | some c =>
      if sk.power != .ready || decide (t.img.quota.get 0 k ≤ sk.quotaUsed.get 0 station) then s else
      let n := t.img.spindles.getD c.sliver 0
      s.copyChecks station n c fun len =>
      let img := s.loadNew c.src len
      match s.arrival n c.src img with
      | (.error f, s) => s.stopSliver station c.sliver n f
      | (.ok s, _) =>
        let s := s.setSkein k { sk with quotaUsed := sk.quotaUsed.set 0 station (sk.quotaUsed.get 0 station + 1) }
        let s := s.engineAt n c.src len false (.copy c.dst)
        let c' : PrologueXfer := { c with held := true, bytes := img }
        let i := t.copies.findIdx here
        (s.setStation station { t with copies := t.copies.set i c' }).depart n true c.dst c.src (localBase n + c.dst)

/-- Every copy of the station in the skein that the quota has room for takes its slot; `fuel` is the number of copies. -/
def State.issueCopies (k station : Nat) : Nat → State → State
  | 0, s => s
  | fuel + 1, s => State.issueCopies k station fuel (s.issueCopy k station)

/-- The copies of the station in skein `k` that a full quota keeps waiting are counted (R45, R645). -/
def State.countQuotaWaits (s : State) (k station : Nat) : State :=
  match s.station station with
  | none => s
  | some t =>
    let waiting := t.copies.countP fun (c : PrologueXfer) => !c.held && skeinOf (t.img.spindles.getD c.sliver 0) == k
    if (s.skein k).power != .ready || waiting == 0 then s else s.count (pgSKN k) 3 waiting

/-- A slot of the quota becomes free; a prologue copy of the station that waits for one takes it. -/
def State.freeQuota (s : State) (k station : Nat) : State :=
  let sk := s.skein k
  (s.setSkein k { sk with quotaUsed := sk.quotaUsed.set 0 station (sk.quotaUsed.get 0 station - 1) }).issueCopy k station

/-- The transfer's data has moved from `src` to `dst`; TRANSFER_COMPLETE retires it with its status once nothing issued before it on its
route is under way (R27, R306). -/
def State.inFlight (s : State) (n src dst : Nat) (dest : Option Reg) (status : W64) : State :=
  (s.setSpindle n { s.spindle n with run := .waitTransfer, wait := .none, own := some ⟨dest, status, false, none⟩ }).depart n false 0 src dst

/-! ### Arrival in local memory (R102, R306, R694) -/

/-- An image passes the checks at use, whatever the operation (R86). -/
def imageGood (img : Bytes) : Bool :=
  (match checkTile img fun _ => none with | .ok _ => true | .error _ => false)
    || (match checkXf img none with | .ok _ => true | .error _ => false)

/-- An image written into a spindle's local memory by the streaming engine; one that passes the checks at use is marked verified (R102). -/
def State.landImage (s : State) (n a : Nat) (img : Bytes) : State :=
  let s := s.localPut n a img
  if imageGood img then s.markVerified n a img.length else s

/-- The streaming engine may write `len` bytes at local address `a` for the spindle (R291, R313, R694). -/
def State.mayDeliver (s : State) (n a len : Nat) (k : State → State) : State :=
  if 2 ^ 18 < a + len then s.stopSp n 0x0305
  else if !(s.spindle n).ownWrite .stream a len then s.stopSp n 0x0304
  else k s

/-- An image read at device address `src` is delivered into the spindle's local memory, or stops the station at its second failure of step 1
(R102, R364–R367). -/
def State.deliver (s : State) (n a src : Nat) (img : Bytes) (k : State → State) : State :=
  s.mayDeliver n a img.length fun s =>
  match s.arrival n src img with
  | (.error f, s) => s.stopTile n f
  | (.ok s, _) => k (s.landImage n a img)

/-- The image that an instruction copies out of local memory, its length by its descriptor, zero fill included (R73, R308);
one that runs past the local memory lies outside what the instruction can reach (R291). -/
def State.imageOut (s : State) (n at_ : Nat) : Except W16 Bytes :=
  let len := (Desc.parse (s.localRead n at_ 64)).stored
  if 2 ^ 18 < at_ + len then .error 0x0305 else .ok (s.localRead n at_ len)

/-! ### Completion (R306, R350) -/

/-- A transfer of the skein's streaming engine has moved its bytes (R641). -/
def State.moved (s : State) (k bytes : Nat) : State := (s.count (pgSKN k) 0 1).count (pgSKN k) 1 bytes

/-- The station that has a prologue copy of spindle `n` in flight. -/
def State.copyOf (s : State) (n : Nat) : Option (Nat × Station × PrologueXfer) :=
  s.stations.findSome? fun (i, t) =>
    (t.copies.find? fun c => c.held && t.img.spindles.getD c.sliver 4608 == n).map fun c => (i, t, c)

/-- The image declares every bank of a range STREAM at its start (R349). -/
def StationImage.declaresStream (img : StationImage) (a n : Nat) : Bool :=
  (banksOf a n).all fun b => (img.banks.getD b Bank.core).owner == .stream

/-- A BANK.TAKE that does not wait for this station's copies holds the range: it was issued before their trigger, and refuses them (R315). -/
def Spindle.takenFrom (x : Spindle) (station a n : Nat) : Bool :=
  (banksOf a n).any fun b => (x.bank b).pending && (match x.wait with | .take l => !(l.contains station) | _ => false)

/-- A prologue copy of spindle `n` writes its image and completes (R348–R350), once nothing issued before it on its route is under way (R27).
A bank that refuses it raises BANK_REFUSED (R314, R322). Once its station's predecessor has ended there,
a bank that no copy targets any more returns to CORE. -/
def State.completeCopy (s : State) (n : Nat) : State :=
  match s.copyOf n with
  | none => s
  | some (i, t, c) =>
    if !(s.mayArrive n true c.dst) then s
    else if !(s.spindle n).owns .stream c.dst c.bytes.length || (s.spindle n).takenFrom i c.dst c.bytes.length || !(t.img.declaresStream c.dst c.bytes.length) then
      (s.raise (pgSPD n) 2 n).stopSliver i c.sliver n (TileFail.ofCode 0x0304)
    else
    let s := (s.arrive n true c.dst).landImage n c.dst c.bytes
    let s := s.setStation i { t with copies := t.copies.erase c }
    let s := (s.moved (skeinOf n) c.bytes.length).freeQuota (skeinOf n) i
    let x := s.spindle n
    let busy := s.copyBanks n
    match x.run with
    | .idle | .ended | .stopped => s.setSpindle n { x with banks := x.banks.filter fun b => busy.contains b.1 }
    | _ => s

end Sys2Proof.Machine
end

