-- ==== Sys2Proof/Machine/Sampler.lean ====
section
/-!
DEFINITION. The sampling unit of a die (R259–R275).
-/
namespace Sys2Proof.Machine

def State.sampler (s : State) (d : Nat) : Sampler := s.smp.get Sampler.reset d
def State.setSampler (s : State) (d : Nat) (x : Sampler) : State := { s with smp := s.smp.set Sampler.reset d x }

/-- The sampling descriptor (R260). -/
structure SampleDesc where
  logits : Nat
  stride : Nat
  vocab : Nat
  invTemp : W32
  nuc : Nat
  nucTop : Nat
  topK : Nat
  slot : Nat
  rsv0 : Nat
  tensor : Nat
  rows : Nat
  results : Nat
  knot : Nat
  rsv1 : Nat

def SampleDesc.parse (b : Bytes) : SampleDesc :=
  { logits := leAt b 0 8, stride := leAt b 8 4, vocab := leAt b 0xC 4, invTemp := BitVec.ofNat 32 (leAt b 0x10 4),
    nuc := leAt b 0x14 3, nucTop := leAt b 0x17 1, topK := leAt b 0x18 2, slot := leAt b 0x1A 1, rsv0 := leAt b 0x1B 1,
    tensor := leAt b 0x1C 4, rows := leAt b 0x20 8, results := leAt b 0x28 8, knot := leAt b 0x30 2, rsv1 := leAt b 0x32 14 }

/-- Logit tiles of a request (R263). -/
def SampleDesc.tiles (d : SampleDesc) : Nat := (d.vocab + 63) / 64

def SampleDesc.greedy (d : SampleDesc) : Bool := d.invTemp == 0

/-- SD_INV_TEMP is +0 or a positive normal number (R262). -/
def tempValid (x : W32) : Bool := x == 0 || (decide (0x00800000 ≤ x.toNat) && decide (x.toNat < 0x7F800000))

/-- An entry of the row table (R261). -/
def rowValid (rows : Bytes) (r : Nat) : Bool := bit (leAt rows (8 * r) 8) 63
def rowSeq (rows : Bytes) (r : Nat) : Nat := leAt rows (8 * r) 8 % 2 ^ 24
def rowPos (rows : Bytes) (r : Nat) : Nat := field (leAt rows (8 * r) 8) 24 20

def validRows (rows : Bytes) : List Nat := (List.range 64).filter (rowValid rows)

/-- The conditions of R262 on the descriptor itself. The last one, that no row is VALID, needs the row table. -/
def SampleDesc.invalid (d : SampleDesc) : Bool :=
  d.nucTop != 0 || d.rsv0 != 0 || d.rsv1 != 0 || d.stride % 64 != 0 || decide (d.stride < 16832) || d.vocab == 0
    || decide (1048576 < d.vocab) || decide (1024 < d.topK) || (d.nuc != 0 && d.topK == 0) || !(tempValid d.invTemp)

/-- A range that the sampling unit reaches: stratum or module memory (R355). -/
def State.samplerReach (s : State) (a n : Nat) : Option W16 :=
  match s.endCheck a, s.endCheck (a + n - 1) with
  | some c, _ | none, some c => some c
  | none, none =>
    match regionOf a with
    | .stratum _ | .module => if s.reserved a n then some 0x0305 else none
    | _ => some 0x0305

/-- RNG.SAMPLE (R259): the descriptor is copied, with what its row table and tiles hold now (R271); a full queue of 16
stalls it. -/
def opRngSample (n : Nat) (a : Reg) (s : State) : State :=
  let d := dieOfSpindle n
  s.orStop n (localAddr ((s.spindle n).s a) 0 64) fun at_ =>
  let u := s.sampler d
  if !s.hasSmp then s.stopSp n 0x0105
  else if 16 ≤ u.queue.length then s.await n .waitTransfer .unit
  else
    let desc := s.localRead n at_ 64
    let sd := SampleDesc.parse desc
    let req : SampleReq :=
      { spindle := n, station := (s.spindle n).station, sliver := (s.spindle n).sliver, at_ := at_, desc := desc, rows := s.loadNew sd.rows 512,
        tiles := (List.range (min sd.tiles 16384)).map fun c => s.loadNew (sd.logits + c * sd.stride) 16832,
        changed := [] }
    (s.setSampler d { u with queue := u.queue ++ [req] }).retire n

/-! ### Serving a request (R263–R270) -/

/-- A candidate: vocabulary index and logit. -/
structure Cand where
  v : Nat
  l : W32
deriving DecidableEq, Repr, Inhabited

/-- Order of R265: logit descending, then index ascending. -/
def Cand.before (a b : Cand) : Bool := f32Lt b.l a.l || (f32Eq a.l b.l && decide (a.v < b.v))

/-- A candidate put into a list in that order, of which `k` are kept. -/
def insertCand (k : Nat) (l : List Cand) (c : Cand) : List Cand :=
  ((l.takeWhile fun x => x.before c) ++ c :: (l.dropWhile fun x => x.before c)).take k

/-- The logits of row `r` of a tile, columns at or beyond V left out; where one is +∞ or NaN, its element index in the tile, which names the
row and with the tile's column the vocabulary index (R69, R264). -/
def rowCands (t : Tile) (vocab r : Nat) : Except Nat (List Cand) :=
  let all := (List.range 64).filterMap fun c =>
    let v := 64 * t.desc.col + c
    if v < vocab then some (⟨v, BitVec.ofNat 32 (t.code (payPos t.desc.axis (64 * r + c)))⟩ : Cand) else none
  match all.find? fun c => f32IsNaN c.l || c.l == 0x7F800000 with
  | some c => .error (64 * r + (c.v - 64 * t.desc.col))
  | none => .ok (all.filter fun c => f32Finite c.l)

/-- What a row has gathered: its candidates, cut to the first K where K ≥ 1. -/
abbrev RowSets := List (Nat × List Cand)

/-- One tile joined to the rows' candidates. -/
def joinTile (d : SampleDesc) (t : Tile) : RowSets → Except Nat RowSets
  | [] => .ok []
  | (r, cs) :: rest =>
    match rowCands t d.vocab r with
    | .error i => .error i
    | .ok new =>
      match joinTile d t rest with
      | .error i => .error i
      | .ok rows => .ok ((r, if d.topK == 0 then cs ++ new else new.foldl (insertCand d.topK) cs) :: rows)

/-- Step 5 for a logit tile: F32 (R263). -/
def acceptLogits (x : Desc) : Option W16 := if x.format == Fmt.f32.code then none else some 0x0206

/-- The tiles in order, each checked, and its rows' logits gathered (R263, R264). -/
def gatherTiles (die : Nat) (d : SampleDesc) (first : Option Nat) : List Nat → RowSets → State → Except TileFail RowSets × State
  | [], rows, s => (.ok rows, s)
  | c :: rest, rows, s =>
    let a := d.logits + c * d.stride
    match s.samplerReach a 16832 with
    | some code => (.error (TileFail.ofCode code), s)
    | none =>
      match s.consume (Consumer.onDie die 0x23 die) a acceptLogits with
      | (.error f, s) => (.error f, s)
      | (.ok t, s) =>
        if t.desc.col != c || first.any (· != t.desc.tensor) then (.error (t.desc.fail 0x020D 0), s)
        else match joinTile d t rows with
          | .error i => (.error (t.desc.fail 0x0201 i), s)
          | .ok rows => gatherTiles die d (some t.desc.tensor) rest rows s

/-- The weight e_v of a kept candidate (R266). In a greedy request a difference that overflows to −∞ makes its product a NaN, and an exact
sum with a NaN the spec does not give: the weight is free there (log entry 111). -/
def nucleusWeight (d : SampleDesc) (top : W32) (c : Cand) : Dy :=
  let x := f32Mul (f32Sub c.l top) d.invTemp
  let e := curveEval (Config.zeroCurveNeg Curve.exp.fn false x) .exp false x
  f32Val (if f32IsNaN e then Config.nucleusOpen c.l top else e)

/-- The shortest prefix that reaches the nucleus threshold, at least one candidate (R266). -/
def nucleusPrefix (need : Dy) (w : Cand → Dy) : List Cand → Dy → List Cand
  | [], _ => []
  | c :: rest, acc =>
    let acc := acc.add (w c)
    if need.le (acc.scale 24) then [c] else c :: nucleusPrefix need w rest acc

/-- The candidates left after both truncations, in order (R265, R266). -/
def SampleDesc.keep (d : SampleDesc) (cs : List Cand) : List Cand :=
  if d.topK == 0 || d.nuc == 0 then cs
  else
    let w := nucleusWeight d ((cs.head?.map (·.l)).getD 0)
    let all := Dy.sum (cs.map w)
    nucleusPrefix (all.mul (Dy.ofInt d.nuc)) w cs Dy.zero

/-- The noise of a candidate (R267). -/
def SampleDesc.noise (d : SampleDesc) (key : SlotKey) (seq pos v : Nat) : W32 :=
  gumbelNoise (mix (counterBlock ((seq * 2 ^ 40 + pos * 2 ^ 20 + v) % 2 ^ 64) d.tensor 0x04 0) key).c0

/-- The candidate of largest score, of smallest index among equal ones (R267, R268). -/
def SampleDesc.pick (d : SampleDesc) (key : SlotKey) (seq pos : Nat) (cs : List Cand) : Nat :=
  let scored := cs.map fun c => (c.v, f32Fma c.l d.invTemp (d.noise key seq pos c.v))
  match scored with
  | [] => 0
  | x :: rest =>
    (rest.foldl (fun (b : Nat × W32) y =>
      if f32Lt b.2 y.2 || (f32Eq b.2 y.2 && decide (y.1 < b.1)) then y else b) x).1

/-- The first candidate in the order of R265. -/
def firstCand : List Cand → Nat
  | [] => 0
  | x :: rest => (rest.foldl (fun (b : Cand) y => if y.before b then y else b) x).v

/-- A result word (R261). -/
def resultWord (token : Nat) (empty greedy : Bool) (kept : Nat) : Nat :=
  token % 2 ^ 20 + b2n empty * 2 ^ 20 + b2n greedy * 2 ^ 21 + kept % 2 ^ 11 * 2 ^ 32

/-- The result of a row from its candidates (R264–R269); the answer tells EMPTY. -/
def SampleDesc.result (d : SampleDesc) (key : SlotKey) (seq pos : Nat) (cs : List Cand) : Nat × Bool :=
  if cs.isEmpty then (resultWord 0 true d.greedy 0, true)
  else
    let left := d.keep cs
    let token := if d.greedy then firstCand left else d.pick key seq pos left
    (resultWord token false d.greedy (if d.topK == 0 then 0 else left.length), false)

/-- The descriptor, the row's entry or a logit of the row has changed since the request was issued, be it for a while (R271). -/
def SampleReq.touched (q : SampleReq) (now : Bytes) (rows : Bytes) (tiles : List Bytes) (r : Nat) : Bool :=
  q.changed.contains r || now != q.desc || leAt rows (8 * r) 8 != leAt q.rows (8 * r) 8
    || (tiles.zip q.tiles).any fun p => p.1 != p.2 && rowBytes p.1 r != rowBytes p.2 r

/-- A row with undefined TOKEN and KEPT: TOKEN below V, or EMPTY (R271). -/
def openResult (d : SampleDesc) (x : Nat) : Nat × Bool :=
  let empty := x % 2 == 1
  (resultWord (if empty then 0 else x / 2 % d.vocab) empty d.greedy (x / 2 ^ 21), empty)

/-- An event of the sampling unit: an extended record with SD_TENSOR in TR_ARG and in bytes 0–3 of the second slot, and the spindle in its bytes
4–5 (R275, R643 name the fields only: DESIGN CHOICE, log entry 27). -/
def State.smpEvent (s : State) (die b tensor n : Nat) : State :=
  s.raiseX (pgSMP die) b 0 tensor (some (leBytes 4 tensor ++ leBytes 2 n ++ zeros 10))

/-- A row's result written. -/
def State.writeRow (s : State) (die n : Nat) (d : SampleDesc) (r : Nat) (res : Nat × Bool) : State :=
  let s := s.store (d.results + 8 * r) (leBytes 8 res.1) (some n)
  let s := s.count (pgSMP die) 0x48 1
  if res.2 then (s.count (pgSMP die) 0x50 1).smpEvent die 0 d.tensor n else s

/-- A request that ends with an error stops its own station, whatever its spindle runs by now (R262, R263, R89). -/
def State.sampleFail (s : State) (die : Nat) (q : SampleReq) (f : TileFail) : State :=
  let s := s.setSampler die { s.sampler die with lastSpd := q.spindle, lastErr := f.code }
  let s := s.latchErr (pgSMP die) f.code (unitInfo (pgSMP die))
  (s.smpEvent die 1 (SampleDesc.parse q.desc).tensor q.spindle).stopSliver q.station q.sliver q.spindle f

/-- The key of a request's noise, with the rules of R244 and R248; a greedy request draws nothing, and its SD_SLOT is not looked at. An SD_SLOT
of 16 or more names no slot and counts as an empty one (R262 does not list it: DESIGN CHOICE, log entry 138). -/
def State.sampleKey (s : State) (station : Nat) (d : SampleDesc) : Except W16 SlotKey :=
  if d.greedy then .ok ⟨0, 0⟩
  else match s.seedKey d.slot with
    | .error c => .error c
    | .ok key => if (s.tensorWidth station d.tensor).isNone then .error 0x010D else .ok key

/-- The knot of a request gains one; its own station must declare it (R271, R340, R397). -/
def State.sampleKnot (s : State) (q : SampleReq) (k : Nat) : State :=
  let stop (c : W16) : State := s.stopSliver q.station q.sliver q.spindle (TileFail.ofCode c)
  if !s.declares q.station k then stop 0x0401
  else if s.genMisuse k .add 1 then stop 0x0414
  else s.unitAdd k 1

/-- The results of a request have been written: it is completed, and its knot advances (R271, R274). -/
def State.sampleEnd (s : State) (die : Nat) (q : SampleReq) : State :=
  let s := s.setSampler die { s.sampler die with ending := none, lastSpd := q.spindle, lastErr := 0 }
  (s.count (pgSMP die) 0x44 1).sampleKnot q (SampleDesc.parse q.desc).knot

/-- Results of a request wait on a snapshot page (R381). -/
def State.resultsWait (s : State) (q : SampleReq) : Bool := s.writesWait (SampleDesc.parse q.desc).results 512

/-- The rows that the station has touched while the results waited get an open result instead (R271). -/
def State.reopenRows (s : State) (q : SampleReq) : State :=
  let d := SampleDesc.parse q.desc
  let (i, s) := s.draw
  (q.changed.filter (rowValid q.rows)).foldl
    (fun s r => s.store (d.results + 8 * r) (leBytes 8 (openResult d (Config.sampleOpen i r)).1) (some q.spindle)) s

/-- The sampling units whose results have landed meanwhile complete their requests (R271). -/
def State.endSamples (s : State) : State :=
  (List.range 4).foldl (fun s die =>
    match (s.sampler die).ending with
    | some q => if !s.jobLive || s.resultsWait q then s else (s.reopenRows q).sampleEnd die q
    | none => s) s

/-- The rows' results, written in order; a row that the station has touched has an open one (R271). -/
def State.writeRows (s : State) (die : Nat) (q : SampleReq) (key : SlotKey) (rows : Bytes) (sets : RowSets) : State :=
  let d := SampleDesc.parse q.desc
  let now := s.localRead q.spindle q.at_ 64
  let tiles := (List.range d.tiles).map fun c => s.loadNew (d.logits + c * d.stride) 16832
  let (i, s) := s.draw
  sets.foldl (fun s (r, cs) =>
    s.writeRow die q.spindle d r (if q.touched now rows tiles r then openResult d (Config.sampleOpen i r)
      else d.result key (rowSeq rows r) (rowPos rows r) cs)) s

/-- Serves one request. Bits [62:44] of a row-table entry, which R261 gives as zero and R262 does not test, are ignored (DESIGN CHOICE, log entry
138). -/
def State.serveSample (s : State) (die : Nat) (q : SampleReq) : State :=
  let d := SampleDesc.parse q.desc
  let fail (c : W16) : State := s.sampleFail die q (TileFail.ofCode c)
  if d.invalid then fail 0x020D else
  match s.samplerReach d.rows 512 with
  | some c => fail c
  | none =>
    let rows := s.loadNew d.rows 512
    let s := s.demandRead d.rows 512
    let fail (c : W16) : State := s.sampleFail die q (TileFail.ofCode c)
    if (validRows rows).isEmpty then fail 0x020D else
    match s.samplerReach d.results 512, s.sampleKey q.station d with
    | some c, _ | none, .error c => fail c
    | none, .ok key =>
      if d.logits % 64 != 0 then fail 0x0306 else
      match gatherTiles die d none (List.range d.tiles) ((validRows rows).map fun r => (r, [])) s with
      | (.error f, s) => s.sampleFail die q f
      | (.ok sets, s) =>
        let s := s.writeRows die q key rows sets
        if s.resultsWait q then s.setSampler die { s.sampler die with ending := some q } else s.sampleEnd die q

/-- SAMPLE_REQUEST_SERVE (R263): the die's oldest request, once the one before it has ended. -/
def execSampleRequestServe (die : Nat) (s : State) : Host.Outcome State Fault Refusal :=
  .next (if !s.jobLive || s.paused || (s.sampler die).ending.isSome then s else
    match (s.sampler die).queue with
    | [] => s
    | q :: rest => (s.setSampler die { s.sampler die with queue := rest }).serveSample die q)

/-- RNG.SAMPLE (R259). -/
def execRngSample (n : Nat) (s : State) : Host.Outcome State Fault Refusal :=
  .next (s.issue n fun i => match i with
    | .rngSample a => some (opRngSample n a)
    | _ => none)

end Sys2Proof.Machine
end

