-- ==== Sys2Proof/Machine/Queue.lean ====
section
/-!
DEFINITION. Tile queues (R330–R339): the engine's kept heads and descriptors, slots, delivery order, push, pull, release and
close, the waits on them and their timeouts.
-/
namespace Sys2Proof.Machine

def dieOfQueue (q : Nat) : Nat := q / 262144

/-- Device address of a queue's descriptor (R330). -/
def descAddr (q : Nat) : Nat := dieOfQueue q * 2 ^ 34 + 0x0003FF000000 + 64 * (q % 262144)

/-- NSLIVER of a station (R324). -/
def State.nsliver (s : State) (station : Nat) : Nat :=
  match s.station station with
  | some t => t.img.spindles.length
  | none => 0

def QEntry.inRing (e : QEntry) : Bool := match e.slot with | .ring _ => true | .spill _ => false

/-- QD_OCCUPIED and QD_SPILLED (R331). -/
def Queue.occupied (q : Queue) : Nat := (q.entries.filter QEntry.inRing).length
def Queue.spilled (q : Queue) : Nat := (q.entries.filter fun e => !e.inRing).length

/-- The 64 bytes of a queue's descriptor (R331). -/
def Queue.descriptor (q : Queue) : Bytes :=
  let d := q.decl
  leBytes 1 q.state ++ leBytes 1 d.format ++ leBytes 1 (b2n d.spill + 2 * d.key + 8 * b2n d.round) ++ leBytes 1 d.keyShift
    ++ leBytes 2 d.producer ++ leBytes 2 d.consumer ++ leBytes 4 d.depth ++ leBytes 4 d.slotBytes ++ leBytes 8 d.ringBase
    ++ leBytes 8 d.spillBase ++ leBytes 4 d.spillDepth ++ leBytes 4 q.occupied ++ leBytes 4 q.spilled
    ++ leBytes 4 q.fullWaits ++ leBytes 8 q.pushed ++ zeros 8

/-! ### Kept heads (R337, R368) -/

def State.engine (s : State) (d : Nat) : QueueEngine := s.engines.get QueueEngine.reset d
def State.setEngine (s : State) (d : Nat) (e : QueueEngine) : State :=
  { s with engines := s.engines.set QueueEngine.reset d e }

/-- An operation on a queue: its head becomes the most recently used; one that is not kept is fetched, and the least recently
used of 4,097 is written back, as R381 lets every write. `none` where the descriptor cannot be read (R337, R368). -/
def State.touchHead (s : State) (q : Nat) : Option State :=
  let d := dieOfQueue q
  let e := s.engine d
  if e.heads.contains q then some (s.setEngine d { e with heads := q :: e.heads.filter (· != q) })
  else if s.uncorr (descAddr q) 64 then none
  else
    let heads := q :: e.heads
    let s := (s.demandRead (descAddr q) 64).count (pgQUE d) 0x5C 1
    let s := (heads.drop 4096).foldl (fun s p => s.store (descAddr p) (s.queue p).descriptor none) s
    some (s.setEngine d { e with heads := heads.take 4096 })

/-- A descriptor that arrives with UNCORR twice stops the job (R368); both reads count, and the queue engine's page latches the queue. -/
def State.badHead (s : State) (station q : Nat) : State :=
  let s := (s.demandRead (descAddr q) 64).demandRead (descAddr q) 64
  (s.latchErr (pgQUE (dieOfQueue q)) 0x0308 (BitVec.ofNat 32 q)).stopUnit 0x0308 station

/-- The queue that an instruction names, if it binds the station in the role (R307), with its head touched. -/
def State.withQueue (s : State) (n : Nat) (v : W64) (producer : Bool) (k : Nat → State → State) : State :=
  let q := v.toNat
  let x := s.spindle n
  let u := s.queue q
  if 1048575 < q ∨ u.state = 0 ∨ (if producer then u.decl.producer else u.decl.consumer) ≠ x.station then
    s.stopSp n 0x0403
  else match s.touchHead q with
    | none => s.badHead x.station q
    | some s => k q s

/-! ### Slots (R334, R338) -/

/-- Device address of a slot. -/
def Queue.addr (q : Queue) : Slot → Nat
  | .ring i => q.decl.ringBase + i * q.decl.slotBytes
  | .spill i => q.decl.spillBase + i * q.decl.slotBytes

/-- The lowest number below `top` that is not in the list. -/
def lowestFree (used : List Nat) (top : Nat) : Option Nat := (List.range (min top (used.length + 1))).find? fun i => !(used.contains i)

def Queue.ringUsed (q : Queue) : List Nat := q.entries.filterMap fun e => match e.slot with | .ring i => some i | .spill _ => none
def Queue.spillUsed (q : Queue) : List Nat := q.entries.filterMap fun e => match e.slot with | .spill i => some i | .ring _ => none

/-- The slot that a push takes: the lowest free ring slot, else under SPILL the lowest free spill slot. -/
def Queue.freeSlot (q : Queue) : Option Slot :=
  match lowestFree q.ringUsed q.decl.depth with
  | some i => some (.ring i)
  | none => if q.decl.spill then (lowestFree q.spillUsed q.decl.spillDepth).map Slot.spill else none

/-! ### Delivery order (R332, R333, R336) -/

/-- The consumer slivers of a tile (R332). -/
def QueueDecl.slivers (d : QueueDecl) (tile : Desc) (nc : Nat) : List Nat :=
  if d.key == 0 then List.range nc
  else [((if d.key == 1 then tile.row else tile.col) / 2 ^ d.keyShift) % max 1 nc]

/-- The next entry of a consumer sliver under ROUND, from the producer in turn on; a producer that has closed and has no
tile left is skipped. `fuel` is the number of producers. -/
def Queue.roundNext (u : Queue) (np c : Nat) : Nat → Nat → Option (QEntry × Nat)
  | 0, _ => none
  | fuel + 1, t =>
    match u.entries.find? fun e => e.producer == t && e.toPull.contains c with
    | some e => some (e, (t + 1) % np)
    | none => if u.closed.contains t then u.roundNext np c fuel ((t + 1) % np) else none

/-- The entry that a PULL of the sliver takes, and the producer whose turn follows (R333). -/
def Queue.next (u : Queue) (np c : Nat) : Option (QEntry × Nat) :=
  if u.decl.round then u.roundNext np c np (u.turn.get 0 c)
  else (u.entries.find? fun e => e.toPull.contains c).map fun e => (e, 0)

/-- Every producer sliver has closed and no tile remains for the sliver (R336). -/
def Queue.ended (u : Queue) (np c : Nat) : Bool :=
  ((List.range np).all fun p => u.closed.contains p) && !(u.entries.any fun e => e.toPull.contains c)

/-- The entry for the sliver whose image has landed in its slot. -/
def State.queueNext (s : State) (q c : Nat) : Option (QEntry × Nat) :=
  let u := s.queue q
  (u.next (s.nsliver u.decl.producer) c).filter fun r => !(s.writesWait (u.addr r.1.slot) r.1.len)

def State.queueEnded (s : State) (q c : Nat) : Bool := (s.queue q).ended (s.nsliver (s.queue q).decl.producer) c

/-! ### Release (R334–R336, R338) -/

/-- The oldest spilled entry moves into the ring slot that has become free (R338). -/
def State.moveSpilled (s : State) (q i : Nat) : State :=
  let u := s.queue q
  match u.entries.find? fun e => !e.inRing with
  | none => s
  | some e =>
    let bs := s.loadNew (u.addr e.slot) e.len
    let s := s.demandRead (u.addr e.slot) e.len
    let s := s.setQueue q { u with entries := u.entries.map fun f => if f.id == e.id then { f with slot := .ring i } else f }
    (s.store (u.addr (.ring i)) bs none).engineAt 4608 (u.addr (.ring i)) e.len true .none

/-- CLOSING becomes CLOSED when no entry is left (R336). -/
def Queue.settle (u : Queue) : Queue := if u.state == 2 && u.entries.isEmpty then { u with state := 3 } else u

/-- A consumer sliver releases an entry; the last of them frees its slot. -/
def State.releaseEntry (s : State) (q id c : Nat) : State :=
  let u := s.queue q
  match u.entries.find? fun e => e.id == id with
  | none => s
  | some e =>
    let left := e.toRelease.filter (· != c)
    if !left.isEmpty then
      s.setQueue q { u with entries := u.entries.map fun f => if f.id == id then { f with toRelease := left } else f }
    else
      let s := s.setQueue q (Queue.settle { u with entries := u.entries.filter fun f => f.id != id })
      match e.slot with
      | .ring i => s.moveSpilled q i
      | .spill _ => s

/-! ### The instructions -/

/-- PULL and PULL.H (R305–R307, R334). -/
def opPull (n : Nat) (hold : Bool) (d a b : Reg) (s : State) : State :=
  let x := s.spindle n
  s.withQueue n (x.s a) false fun q s =>
  if hold && decide (64 ≤ x.held.length) then s.stopSp n 0x0407 else
  s.orStop n (localAddr (x.s b) 0 64) fun at_ =>
  s.takeQuota n fun s =>
  match s.queueNext q x.sliver with
  | some (e, turn) =>
    let u := s.queue q
    let img := s.loadNew (u.addr e.slot) e.len
    let src := u.addr e.slot
    s.onRoute n src (localBase n + at_) (.pull q) fun s =>
    s.deliver n at_ src img fun s =>
    let s := s.engineAt n src e.len false (.image at_)
    let s := s.setQueue q { u with
      turn := if u.decl.round then u.turn.set 0 x.sliver turn else u.turn,
      entries := u.entries.map fun f => if f.id == e.id then { f with toPull := f.toPull.filter (· != x.sliver) } else f }
    let s := if hold then s.setSpindle n { s.spindle n with held := (s.spindle n).held ++ [(q, e.id)] }
      else s.releaseEntry q e.id x.sliver
    s.inFlight n src (localBase n + at_) (some d) (pullStatus e.len false)
  | none =>
    if s.queueEnded q x.sliver then (s.freeQuota (skeinOf n) x.station).retireS n d (pullStatus 0 true)
    else s.await n .waitQueue (.pull q)

/-- PULL.REL (R305, R307): this spindle's oldest held entry of the queue. -/
def opPullRel (n : Nat) (a : Reg) (s : State) : State :=
  let x := s.spindle n
  s.withQueue n (x.s a) false fun q s =>
  match x.held.find? fun h => h.1 == q with
  | none => s.stopSp n 0x0407
  | some h => ((s.setSpindle n { x with held := x.held.erase h }).releaseEntry q h.2 x.sliver).retire n

/-- A push that waits for a slot (R338, R339): counted once. -/
def State.pushWaits (s : State) (n q : Nat) : State :=
  let u := s.queue q
  if u.waiting.contains n then s.await n .waitQueue (.push q)
  else
    let s := if u.decl.spill then (s.count (pgQUE (dieOfQueue q)) 0x60 1).raise (pgQUE (dieOfQueue q)) 1 q else s
    let s := s.setQueue q { u with waiting := u.waiting ++ [n], fullWaits := sat32 (u.fullWaits + 1) }
    s.await n .waitQueue (.push q)

/-- PUSH (R305–R307, R334, R338, R339). Waiting pushes are served in the order in which they began to wait. -/
def opPush (n : Nat) (d a b : Reg) (s : State) : State :=
  let x := s.spindle n
  s.withQueue n (x.s a) true fun q s =>
  let u := s.queue q
  if u.closed.contains x.sliver then s.stopSp n 0x0406 else
  s.orStop n (localAddr (x.s b) 0 64) fun at_ =>
  s.orStop n (s.imageOut n at_) fun img =>
  let desc := Desc.parse img
  if desc.format != u.decl.format || decide (u.decl.slotBytes < img.length) then s.stopSp n 0x0405 else
  s.takeQuota n fun s =>
  let slot := if u.waiting.isEmpty || u.waiting.head? == some n then u.freeSlot else none
  match slot with
  | none => s.pushWaits n q
  | some slot =>
    s.onRoute n (localBase n + at_) (u.addr slot) (.push q) fun s =>
    let cs := u.decl.slivers desc (s.nsliver u.decl.consumer)
    let e : QEntry := ⟨u.nextId, slot, img.length, x.sliver, cs, cs⟩
    let s := s.setQueue q { u with entries := u.entries ++ [e], nextId := u.nextId + 1, pushed := satAdd (2 ^ 48 - 1) u.pushed 1,
                                   waiting := u.waiting.filter (· != n) }
    let dst := u.addr slot
    ((s.store dst img (some n)).engineAt n dst img.length true .none).inFlight n (localBase n + at_) dst (some d)
      (pullStatus img.length false)

/-- PUSH.CLOSE (R336). -/
def opPushClose (n : Nat) (a : Reg) (s : State) : State :=
  let x := s.spindle n
  s.withQueue n (x.s a) true fun q s =>
  let u := s.queue q
  let closed := if u.closed.contains x.sliver then u.closed else u.closed ++ [x.sliver]
  let all := (List.range (s.nsliver u.decl.producer)).all fun p => closed.contains p
  let u := { u with closed := closed, state := if all && u.state == 1 then 2 else u.state }
  (s.setQueue q u.settle).retire n

/-- BMM.YIELD.Q (R178, R180, R183): the condition is that a PULL of the queue would not wait. -/
def opYieldQ (n : Nat) (a : Reg) (s : State) : State :=
  let x := s.spindle n
  s.drainFirst n fun s =>
  s.withQueue n (x.s a) false fun q s =>
  s.yieldOn n ((s.queueNext q x.sliver).isSome || s.queueEnded q x.sliver) fun s => s.await n .waitQueue (.pull q)

/-! ### Timeouts (R307, R339, R343) -/

/-- The spindle waits for a tile that has not come, or for a slot that it cannot take. -/
def State.pullWaiting (s : State) (n : Nat) : Bool :=
  let x := s.spindle n
  match x.wait with
  | .pull q => s.jobLive && !s.paused && (s.queueNext q x.sliver).isNone && !(s.queueEnded q x.sliver)
  | _ => false

def State.pushWaiting (s : State) (n : Nat) : Option Nat :=
  match (s.spindle n).wait with
  | .push q =>
    let u := s.queue q
    if (s.spindle n).run == .waitQueue && s.jobLive && !s.paused && !(u.waiting.head? == some n && u.freeSlot.isSome) then some q else none
  | _ => none

/-- A push has waited for the station's knot timeout (R339): FULL_TIMEOUT, and the stop. -/
def State.pushTimeout (s : State) (n q : Nat) : State :=
  let (s, cap) := s.trigger 3
  (s.raiseF (pgQUE (dieOfQueue q)) 0 (trgFlag cap) q).stopSp n 0x0408

/-- QUEUE_TIMEOUT (R307). -/
def execQueueTimeout (n : Nat) (s : State) : Host.Outcome State Fault Refusal :=
  .next (if s.pullWaiting n then s.timeoutSp n 0x0404 else s)

/-- QUEUE_FULL_TIMEOUT (R339). -/
def execQueueFullTimeout (n : Nat) (s : State) : Host.Outcome State Fault Refusal :=
  .next (match s.pushWaiting n with
    | some q => s.pushTimeout n q
    | none => s)

/-- KNOT_TIMEOUT (R343): whatever the spindle waits for, its station stops with the code of the wait. -/
def execKnotTimeout (n : Nat) (s : State) : Host.Outcome State Fault Refusal :=
  .next (
    if s.pullWaiting n then s.timeoutSp n 0x0404
    else if s.epochWaiting n then s.timeoutSp n 0x0411
    else if s.spillWaiting n then s.timeoutSp n 0x0412
    else match s.pushWaiting n with
      | some q => s.pushTimeout n q
      | none => if s.jobLive && !s.paused then s.knotTimeout n else s)

/-! ### The rows -/

/-- PULL (R307). -/
def execPull (n : Nat) (s : State) : Host.Outcome State Fault Refusal :=
  .next (s.issue n fun i => match i with
    | .pull d a b => some (opPull n false d a b)
    | _ => none)

/-- PULL.H (R305). -/
def execPullH (n : Nat) (s : State) : Host.Outcome State Fault Refusal :=
  .next (s.issue n fun i => match i with
    | .pullH d a b => some (opPull n true d a b)
    | _ => none)

/-- PULL.REL (R305). -/
def execPullRel (n : Nat) (s : State) : Host.Outcome State Fault Refusal :=
  .next (s.issue n fun i => match i with
    | .pullRel a => some (opPullRel n a)
    | _ => none)

/-- PUSH (R334). -/
def execPush (n : Nat) (s : State) : Host.Outcome State Fault Refusal :=
  .next (s.issue n fun i => match i with
    | .push d a b => some (opPush n d a b)
    | _ => none)

/-- PUSH.CLOSE (R336). -/
def execPushClose (n : Nat) (s : State) : Host.Outcome State Fault Refusal :=
  .next (s.issue n fun i => match i with
    | .pushClose a => some (opPushClose n a)
    | _ => none)

/-- BMM.YIELD.Q (R178). -/
def execBmmYieldQ (n : Nat) (s : State) : Host.Outcome State Fault Refusal :=
  .next (s.issue n fun i => match i with
    | .yieldQ a => some (opYieldQ n a)
    | _ => none)

end Sys2Proof.Machine
end

