-- ==== Sys2Proof/Machine/Stations.lean ====
section
/-!
DEFINITION. Stations (R277, R326–R328, R347–R352, R652): start conditions, skein wakes, prologues, program start and the
station watchdog; and the start sequencer (R584) with the mode changes that it grants (R580, R581).
-/
namespace Sys2Proof.Machine

/-! ### Array clocks (R580, R581) -/

/-- Clock of an array domain in a mode, in MHz: domain 2 k is skein k's forward array, 2 k + 1 its backward array. -/
def modeClock (mode d : Nat) : Nat :=
  let fwd := d % 2 == 0
  if mode == 0 then (if fwd then 2250 else 500)
  else if mode == 1 then (if fwd then 1125 else 2250)
  else if mode == 2 then 1800
  else 2250

/-- The mode whose clock a domain runs. -/
def PowerSt.domain (p : PowerSt) (d : Nat) : Nat := (p.domains.find d).getD p.active

/-- The array domains of the fitted skeins. -/
def State.domainList (s : State) : List Nat := (List.range 144).filter fun d => s.skeinPresent (d / 2)

/-- Once every domain runs the new mode, it is in force. -/
def State.settleMode (s : State) : State :=
  let p := s.power
  if p.changing && s.domainList.all fun d => p.domain d == p.mode then
    { s with power := { p with active := p.mode, domains := [], changing := false } }
  else s

/-- A change to mode `m` begins: a domain whose clock does not rise changes, each of the others makes a raise request. -/
def State.beginMode (s : State) (m : Nat) : State :=
  let p := s.power
  let rises := s.domainList.filter fun d => decide (modeClock (p.domain d) d < modeClock m d)
  let rest := s.domainList.filter fun d => !(rises.contains d)
  let dom := rest.foldl (fun (t : Tbl Nat) d => t.put d m) (rises.foldl (fun (t : Tbl Nat) d => t.put d (p.domain d)) [])
  State.settleMode { s with power := { p with mode := m, changing := true, domains := dom,
                                              queue := p.queue ++ rises.map SeqReq.raise } }

/-- A mode that is asked for while a change runs is kept until it is done; only the last is kept. -/
def State.setMode (s : State) (m : Nat) : State :=
  if s.power.changing then { s with power := { s.power with pendingMode := some m } } else s.beginMode m

/-- The change that was kept begins. -/
def State.nextMode (s : State) : State :=
  match s.power.changing, s.power.pendingMode with
  | false, some m => State.beginMode { s with power := { s.power with pendingMode := none } } m
  | _, _ => s

/-- POWER_DOMAIN_RAISE (R581): a granted domain takes the clock of the new mode. -/
def execPowerDomainRaise (domain : Nat) (s : State) : Host.Outcome State Fault Refusal :=
  .next (
    let p := s.power
    if !(p.granted.contains (.raise domain)) then s else
    (State.settleMode { s with power := { p with granted := p.granted.erase (.raise domain),
                                                 domains := p.domains.put domain p.mode } }).nextMode)

/-! ### The start sequencer (R352, R584) -/

/-- A wake request; a skein that is not off makes none, and after a coolant stop every skein is held off (R687). -/
def State.requestWake (s : State) (k : Nat) : State :=
  let sk := s.skein k
  if sk.power != .off || s.power.coolantStop then s
  else
    let s := s.setSkein k { sk with power := .requested }
    { s with power := { s.power with queue := s.power.queue ++ [.wake k] } }

/-- START_SEQ_GRANT (R584): the oldest request is granted. During a sag only the resume's requests are. -/
def execStartSeqGrant (s : State) : Host.Outcome State Fault Refusal :=
  .next (
    if s.paused && s.sag.state != .resuming then s else
    match s.power.queue with
    | [] => s
    | q :: rest =>
      let s := { s with power := { s.power with queue := rest } }
      let s := s.count pgPWR 0x54 1
      match q with
      | .raise d => { s with power := { s.power with granted := s.power.granted ++ [.raise d] } }
      | .wake k =>
        let sk := s.skein k
        match sk.power with
        | .requested => s.setSkein k { sk with power := .waking }
        | .retained => s.setSkein k { sk with power := .resuming }
        | _ => s)

/-! ### Waking a skein (R351, R375) -/

/-- The code of every loaded station placed on the skein is written into its pool. -/
def State.placeCode (s : State) (k : Nat) : State :=
  s.stations.foldl (fun s t =>
    if t.2.img.spindles.any (fun n => skeinOf n == k) then
      s.poke (poolBase k + t.2.img.codeBase) (fitBytes t.2.img.codeLen t.2.img.code)
    else s) s

/-- A skein that woke from off: pool and local memories cleared, code written. -/
def State.wakeSkein (s : State) (k : Nat) : State :=
  let s := (s.clearMem (poolBase k) 0x400000).clearMem (localBase (64 * k)) (64 * 0x40000)
  let s := s.placeCode k
  let s := (List.range 64).foldl (fun s i =>
    let n := 64 * k + i
    let x := s.spindle n
    s.setSpindle n { x with verified := [] }) s
  let s := s.setSkein k { s.skein k with power := .ready, xbLast := none }
  (s.count (pgSKN k) 4 1).raise (pgSKN k) 1 k

/-- Copies of every station in the skein that wait for their slots (R348). -/
def State.issueSkeinCopies (s : State) (k : Nat) : State :=
  s.stations.foldl (fun s t => (s.issueCopies k t.1 t.2.copies.length).countQuotaWaits k t.1) s

/-! ### Start (R277, R327, R328) -/

/-- The spindle of a sliver. -/
def StationImage.spindleOf (img : StationImage) (sliver : Nat) : Nat := img.spindles.getD sliver 0

/-- The start condition of a sliver (R327). -/
def State.startHolds (s : State) (t : Station) (sliver : Nat) : Bool :=
  match t.img.start with
  | .atLoad => true
  | .knot _ _ => t.startMet.contains sliver
  | .pred p =>
    match s.station p with
    | none => false
    | some u =>
      let n := t.img.spindleOf sliver
      if u.img.spindles.contains n then u.slivers.get .waiting (u.img.spindles.idxOf n) == .ended
      else (List.range u.img.spindles.length).all fun i => u.slivers.get .waiting i == .ended

/-- The prologue of a sliver has been issued, and its copies have completed (R326, R328). -/
def Station.prologueDone (t : Station) (sliver : Nat) : Bool :=
  (t.img.prologue.get [] sliver).isEmpty
    || (t.issued.contains (skeinOf (t.img.spindleOf sliver)) && !(t.copies.any fun c => c.sliver == sliver))

/-- The banks that an image declares, by number. -/
def StationImage.bankTable (img : StationImage) : Tbl Bank :=
  img.banks.zipIdx.foldl (fun (t : Tbl Bank) (b, i) => t.set Bank.core i b) []

/-- The spindle as a program finds it (R277, R315). Marks of verified images describe the local memory and stay. -/
def Spindle.start (x : Spindle) (img : StationImage) (sliver : Nat) : Spindle :=
  { Spindle.reset with run := .run, station := img.number, sliver := sliver, nsliver := img.spindles.length, pc := img.entry,
                       banks := img.bankTable, verified := x.verified }

def State.putSliver (s : State) (station sliver : Nat) (v : SliverState) : State :=
  match s.station station with
  | some t => s.setStation station { t with slivers := t.slivers.put sliver v }
  | none => s

/-- STATION_START (R326, R328): a sliver whose start condition holds asks for its skein's wake, then waits for its prologue and
for its spindle, and runs. -/
def execStationStart (station sliver : Nat) (s : State) : Host.Outcome State Fault Refusal :=
  .next (
    if s.job.state != .loaded || s.paused then s else
    match s.station station with
    | none => s
    | some t =>
      let n := t.img.spindleOf sliver
      let k := skeinOf n
      let st := t.slivers.get .waiting sliver
      if t.img.spindles.length ≤ sliver || !(st == .waiting || st == .waking || st == .prologue)
          || !(s.startHolds t sliver) then s
      else
        let s := s.requestWake k
        if (s.skein k).power != .ready then s.putSliver station sliver .waking
        else
          let free := match (s.spindle n).run with | .idle | .ended => true | _ => false
          if !(t.prologueDone sliver) || !free then s.putSliver station sliver .prologue
          else
            let s := s.setSpindle n ((s.spindle n).start t.img sliver)
            s.putSliver station sliver .running)

/-! ### Prologues (R347–R350) -/

/-- The entries of one sliver: copies join the list, heads are fetched. -/
def State.issueEntries (s : State) (station sliver : Nat) : List PrologueEntry → State
  | [] => s
  | .copy src dst :: rest =>
    let s := match s.station station with
      | some t => s.setStation station { t with copies := t.copies ++ [(⟨sliver, src, dst, false, []⟩ : PrologueXfer)] }
      | none => s
    s.issueEntries station sliver rest
  | .warm q :: rest =>
    match s.touchHead q with
    | some s => s.issueEntries station sliver rest
    | none => s.badHead station q

/-- PROLOGUE_TRIGGER (R348): on a skein where the trigger knot has reached its value, the entries of the successor's slivers are
issued; copies move once the skein is awake and the quota has room. -/
def execPrologueTrigger (station k : Nat) (s : State) : Host.Outcome State Fault Refusal :=
  .next (
    if s.job.state != .loaded || s.paused then s else
    match s.station station with
    | none => s
    | some t =>
      if !(t.triggered.contains k) || t.issued.contains k then s
      else
        let s := s.requestWake k
        let s := s.setStation station { t with issued := t.issued ++ [k] }
        let mine := (List.range t.img.spindles.length).filter fun i => skeinOf (t.img.spindleOf i) == k
        let s := mine.foldl (fun s i => s.issueEntries station i (t.img.prologue.get [] i)) s
        (s.issueCopies k station (64 * mine.length)).countQuotaWaits k station)

/-! ### The watchdog (R652) -/

/-- STATION_WATCHDOG (R652): a station with a running sliver has made no progress for TRC_WD_MS. -/
def execStationWatchdog (station : Nat) (s : State) : Host.Outcome State Fault Refusal :=
  .next (
    match s.station station with
    | none => s
    | some t =>
      if s.trace.wdMs == 0 || !s.jobLive || s.paused || !(t.slivers.any fun kv => kv.2 == .running) then s
      else
        let (s, cap) := s.trigger 2
        s.stopJobM { StopRec.none with code := 0x0409, station := station } cap)

end Sys2Proof.Machine
end

