-- ==== Sys2Proof/Machine/Talk.lean ====
section
/-!
DEFINITION. Opening and closing sessions from the module's side (R470, R471, R483, R488), and long operations (R503–R509): the
chunks that a sender may send, and how an operation ends.
-/
namespace Sys2Proof.Machine

/-! ### Session slots (R469–R471) -/

/-- The engine that serves a plane, and the first of its 4,096 slots. -/
def planeEngine (plane : Nat) : Nat := if plane == 1 then 1 else 0

def State.slotKeys (s : State) (e : Nat) : List Nat :=
  (s.mrn.sessions.filter fun kv => kv.1 / 4096 == e).map (·.1)

/-- The lowest slot of an engine that is not in use. -/
def State.freeSlot (s : State) (e : Nat) : Nat :=
  4096 * e + (lowestFree ((s.slotKeys e).map (· % 4096)) 4096).getD 0

/-- Sessions of a kind at most (R470). -/
def sessionLimit (kind : Nat) : Nat := if kind == 0 then 16 else if kind == 1 then 256 else if kind == 2 then 64 else 2048

/-- The kind has no room for one more; PEER sessions are counted plane by plane (R470). -/
def State.kindFull (s : State) (kind plane : Nat) : Bool :=
  decide (sessionLimit kind ≤ (s.mrn.sessions.filter fun kv =>
    kv.2.kind == kind && (kind != 3 || planeEngine kv.2.plane == planeEngine plane)).length)

/-- A session id that is not in use (R471). -/
def State.newId (s : State) : Nat × State :=
  let hi := s.mrn.bootCount % 4096 * 2 ^ 20
  let used := s.mrn.sessions.map fun kv => kv.2.id
  let c := ((List.range (used.length + 1)).find? fun i => !(used.contains (hi + (s.mrn.nextId + i) % 2 ^ 20))).getD 0
  (hi + (s.mrn.nextId + c) % 2 ^ 20, { s with mrn := { s.mrn with nextId := (s.mrn.nextId + c + 1) % 2 ^ 20 } })

/-- Bytes drawn from the module's entropy source. -/
def State.drawBytes (s : State) (n : Nat) : Bytes × State :=
  let (d, s) := s.draw
  (fitBytes n (Config.entropy d n), s)

/-- The rank that a ring manager's HELLO carries to the top manager (log entry 91). -/
def ringRank (ring : Nat) : Nat := 0xFF80 + ring

/-- The module's own logical rank: that of its mapping, else that of its ROSTER entry; a ring manager below the top, which has no entry,
names its ring. -/
def State.ownRank (s : State) : Nat :=
  match s.job.mapping, s.mgr.plan with
  | some m, _ => m.rank
  | none, some p => if p.top then s.trd.rank else ringRank p.ring
  | none, none => s.trd.rank

/-- E0 (R483, R488, A0): a slot is allocated and HELLO leaves; nothing happens where the kind has no room. -/
def State.openSession (s : State) (kind plane : Nat) (addr : BitVec 128) (peerRank : Nat) (op : W64) : State :=
  if s.kindFull kind plane then s else
  let (id, s) := s.newId
  let (nonce, s) := s.drawBytes 16
  let payload := leBytes 1 kind ++ leBytes 1 plane ++ zeros 2 ++ leBytes 4 id ++ nonce ++ leBytes 2 s.ownRank ++ zeros 6
    ++ leBytes 8 op.toNat
  let x : Session := { Session.fresh with
    id := id, kind := kind, plane := plane, opener := true, rank := peerRank, addr := addr, nonce := nonce,
    opId := op, hello := payload }
  let i := s.freeSlot (planeEngine plane)
  (s.setSession i x).fire (Acts.plain fun _ s _ => s) 0 i

/-- An event whose A11 has no user left to inform. -/
def State.quietEvent (s : State) (e i : Nat) : State := s.fire (Acts.plain fun e s i => s.countFailed e i 0) e i

/-- E15 (R488): a draining session with nothing left to send or to be acknowledged. -/
def State.drainEnd (s : State) (i : Nat) : State :=
  let x := s.session i
  if x.state == .DR && x.out.isEmpty && x.queued.isEmpty then s.quietEvent 15 i else s

/-- E14 (R488), for a session whose users are done. -/
def State.closeLocal (s : State) (i : Nat) : State := (s.quietEvent 14 i).drainEnd i

/-! ### Long operations (R503–R509) -/

def State.findOp (s : State) (id : W64) : Option BulkOp := s.mrn.ops.find? fun o => o.id == id

def State.putOp (s : State) (o : BulkOp) : State :=
  { s with mrn := { s.mrn with ops := s.mrn.ops.map fun p => if p.id == o.id then o else p } }

/-- An operation that is neither complete nor ended. -/
def BulkOp.live (o : BulkOp) : Bool := o.state == .created || o.state == .bound || o.state == .held

/-- MRN_BULK.WINDOW in bytes (R506, R513). -/
def State.bulkWindow (s : State) : Nat := s.mrn.bulkReg.toNat % 65536 * 2 ^ 20

/-- A message of the operation on its session, if it has one. -/
def State.sendOp (s : State) (o : BulkOp) (typ : Nat) (payload : Bytes) : State :=
  match o.session with
  | some i => s.send i ⟨typ, 0, payload⟩
  | none => s

/-- A chunk (R504). -/
def BulkOp.chunk (o : BulkOp) (n : Nat) : Bytes :=
  let bs := (o.stream.drop o.sent).take n
  leBytes 8 o.id.toNat ++ leBytes 8 o.sent ++ leBytes 4 (crc32c bs).toNat ++ leBytes 4 n ++ bs

/-- The sender sends what its object has ready and its window lets go, and BULK_END after the last byte (R504, R506, R509).
`fuel` bounds the number of chunks. -/
def State.pumpOp (id : W64) : Nat → State → State
  | 0, s => s
  | fuel + 1, s =>
    match s.findOp id with
    | none => s
    | some o =>
      let n := min 8192 (o.length - o.sent)
      if !o.sends || o.state != .bound || o.ended.isSome then s
      else if n == 0 then
        if o.length == 0 then s else
        let crc := crc32c (o.stream.take o.length)
        (s.putOp { o with ended := some (o.length, crc) }).sendOp o 0x0302
          (leBytes 8 o.id.toNat ++ leBytes 8 o.length ++ leBytes 4 crc.toNat)
      else if decide (o.stream.length < o.sent + n) || decide (o.journal + s.bulkWindow < o.sent + n) then s
      else State.pumpOp id fuel ((s.putOp { o with sent := o.sent + n, top := max o.top (o.sent + n) }).sendOp o 0x0300 (o.chunk n))

def State.pump (s : State) (id : W64) : State :=
  match s.findOp id with
  | some o => State.pumpOp id (o.length / 8192 + 3) s
  | none => s

/-- The session slot that an operation's HELLO has just been sent on. -/
def State.helloSlot (s : State) (id : W64) : Option Nat :=
  (s.mrn.sessions.find? fun kv => kv.2.kind == 2 && kv.2.opener && kv.2.opId == id && kv.2.state == .OG).map (·.1)

/-- The sending module opens the operation's session (R503); the first time it starts to send at once. -/
def State.openOp (s : State) (id : W64) : State :=
  match s.findOp id with
  | none => s
  | some o =>
    let s := s.openSession 2 o.plane o.peer 0 id
    match s.helloSlot id with
    | none => s.putOp { o with state := .held }
    | some i =>
      let first := o.state == .created
      let s := s.putOp { o with session := some i, state := if first then .bound else o.state }
      if first then s.pump id else s

/-- Pool pages become free (R384, R506). -/
def State.freePool (s : State) (l : List Nat) : State :=
  { s with snap := { s.snap with used := s.snap.used.filter fun i => !(l.contains i) } }

/-- An operation is over: its window's pages are free, and where the module opened its session, it closes it. -/
def State.dropOp (s : State) (o : BulkOp) (st : BulkState) (err : W16) : State :=
  let s := (s.putOp { o with state := st, err := err, session := none, window := [] }).freePool o.window
  match o.session with
  | some i => if (s.session i).opener then s.closeLocal i else s
  | none => s

/-- An operation ends with an error; `tell` sends BULK_ABORT (R509). -/
def State.failOp (s : State) (id : W64) (err : W16) (tell : Bool) : State :=
  match s.findOp id with
  | none => s
  | some o =>
    if !o.live then s else
    let s := if tell then s.sendOp o 0x0303 (leBytes 8 id.toNat ++ leBytes 2 err.toNat) else s
    s.dropOp o .failed err

end Sys2Proof.Machine
end

