-- ==== Sys2Proof/Machine/Snap.lean ====
section
/-!
DEFINITION. Snapshots (R378–R384, R558–R575): the page mechanics, the checkpoint head, opening, streaming, abandoning; and the
check and the applying of a restored head.
-/
namespace Sys2Proof.Machine

/-! ### The pool and the page states (R379–R384) -/

/-- Device address of a pool page. -/
def Snapshot.poolAddr (x : Snapshot) (slot : Nat) : Nat := x.poolBase + 65536 * slot

def Snapshot.freeSlot (x : Snapshot) : Option Nat := lowestFree x.used x.poolPages

/-- Pool pages that hold pages of the head: used, no page's copy and in no window. -/
def State.headSlots (s : State) : List Nat :=
  let copies := s.snap.pages.filterMap fun kv => match kv.2 with | .copying i | .copied i => some i | _ => none
  let windows := s.mrn.ops.flatMap (·.window)
  s.snap.used.filter fun i => !(copies.contains i) && !(windows.contains i)

/-- The waiting writes in arrival order, parted into those that still wait and those that proceed: a write proceeds when every page that it
waited on has left PROTECTED and STREAMING, its clear has ended, and no write before it still waits (R356, R376, R382). -/
def State.partWaits (s : State) : List WaitWrite → List WaitWrite → List WaitWrite × List WaitWrite
  | kept, [] => (kept, [])
  | kept, w :: rest =>
    if w.pages.any s.pageHeld || kept.any (fun v => v.before w) then s.partWaits (kept ++ [w]) rest
    else let (k, go) := s.partWaits kept rest; (k, w :: go)

/-- Writes that no longer wait proceed, in arrival order (R382), and what waited for them in turn. -/
def State.letWrites (s : State) : State :=
  let (kept, go) := s.partWaits [] s.snap.waits
  (go.foldl (fun (s : State) w => s.poke w.addr w.data) { s with snap := { s.snap with waits := kept } }).endSamples

/-- A page leaves PROTECTED or STREAMING for `st` (`none`: FREE). -/
def State.pageTo (s : State) (p : Nat) (st : Option PageState) : State :=
  let pages := match st with | some v => s.snap.pages.put p v | none => s.snap.pages.del p
  State.letWrites { s with snap := { s.snap with pages := pages } }

/-- Every page returns to FREE, the pool is emptied and waiting writes proceed (R384). -/
def State.dropSnap (s : State) (err : W16) : State :=
  let x := s.snap
  let s := State.letWrites { s with snap := { x with pages := [], used := [], todo := [], reading := none,
                                                     head := [], state := .abandoned, err := err } }
  (s.raise pgSNP 1 (x.id.toNat % 2 ^ 32)).sendStatus 9 err x.id.toNat

/-- The snapshot is abandoned, and its stream ends with the code (R384). -/
def State.abandonSnap (s : State) (err : W16) : State :=
  if s.snap.state != .opened then s else (s.failOp s.snap.op err true).dropSnap err

/-- A restore fails: its code, and RESTORE_FAILED with the checkpoint id as far as the head has arrived (R545, R569, R575). -/
def State.restoreFailed (s : State) (err : W16) (ckpt : Nat) : State :=
  State.sendStatus { s with snap := { s.snap with rErr := err, rState := 4 } } 7 err ckpt

/-- A long operation ends with an error: a snapshot is abandoned, also one that is DONE but not yet wholly received, and a restore has
failed (R384, R507, R509, R568). -/
def State.endOp (s : State) (id : W64) (err : W16) (tell : Bool) : State :=
  match s.findOp id with
  | none => s
  | some o =>
    if !o.live then s else
    let s := s.failOp id err tell
    match o.obj with
    | .snapshot => if (s.snap.state == .opened || s.snap.state == .done) && s.snap.op == id then s.dropSnap 0x0309 else s
    | .restore => s.restoreFailed err (leNat (o.data.range 0 8 8))
    | _ => s

/-! ### The snapshot set (R378, R562) -/

/-- The entries at SNP_SET_BASE: as many as the checkpoint table has. -/
def State.snapSet (s : State) : List (Nat × Nat) :=
  let n := ((s.job.ckpt).map (·.entries.length)).getD 0
  (List.range n).map fun i =>
    let a := quoinBase + s.snap.setBase + 16 * i
    (leNat (s.load a 6), leNat (s.load (a + 8) 8))

def isDram (a : Nat) : Bool := decide (a < 4 * stratumSize) || (decide (moduleBase ≤ a) && decide (a < 0x018000000000))

/-- The variant backs an address of stratum or module memory, whatever dies are awake (R7, R8). -/
def State.fitted (s : State) (a : Nat) : Bool :=
  match regionOf a with
  | .stratum d | .descriptors d => s.diePresent d
  | .module => s.hasB || moduleQuoin a == 0
  | _ => false

/-- An entry that R378 refuses, whatever the others are; `backed` says which addresses are backed. -/
def State.entryBad (s : State) (backed : Nat → Bool) (e : Nat × Nat) : Bool :=
  e.1 % 65536 != 0
    || !((List.range e.2).all fun i => isDram (e.1 + 65536 * i) && backed (e.1 + 65536 * i))
    || overlaps e.1 (65536 * e.2) s.snap.poolBase (65536 * s.snap.poolPages)
    || s.inTraceRange e.1 (65536 * e.2)

def State.setEntryBad (s : State) (e : Nat × Nat) : Bool := s.entryBad s.backed e

/-- Two entries overlap. -/
def anyOverlap : List (Nat × Nat) → Bool
  | [] => false
  | e :: rest => rest.any (fun f => overlaps e.1 (65536 * e.2) f.1 (65536 * f.2)) || anyOverlap rest

def State.setValid (s : State) : Bool := !(s.snapSet.any s.setEntryBad) && !(anyOverlap s.snapSet)

/-! ### The head (R563, R564) -/

def pad64 (bs : Bytes) : Bytes := fitBytes (roundUp bs.length 64) bs

/-- The bound trackers of the module: skein, tracker, state. -/
def State.boundTrackers (s : State) : List (Nat × Nat × Tracker) :=
  s.sk.flatMap fun (k, x) => (x.trackers.filter fun jt => jt.2.bound).map fun (j, t) => (k, j, t)

def Channel.entry (c : Channel) : Bytes :=
  leBytes 4 c.lo.toNat ++ leBytes 4 c.hi.toNat ++ leBytes 3 (min 0xFFFFFF c.clipped) ++ leBytes 1 (b2n c.flat) ++ leBytes 4 c.factor.toNat
    ++ leBytes 4 c.prevFactor.toNat ++ zeros 4

/-- A tracker's channel entries. -/
def State.channelsOf (s : State) (k : Nat) (t : Tracker) : List Channel :=
  (List.range t.bind.chCount).map fun i => (s.skein k).channels.get Channel.reset (t.bind.chBase + i)

/-- A tracker entry whose first channel entry has index `first` (R564). -/
def Tracker.entry (t : Tracker) (first : Nat) : Bytes :=
  leBytes 2 t.bind.station ++ zeros 2 ++ leBytes 4 t.bind.tensor ++ leBytes 3 t.bind.col0 ++ leBytes 3 t.bind.coln
    ++ leBytes 2 t.epoch.toNat ++ leBytes 1 t.state ++ leBytes 1 t.exp ++ leBytes 1 t.prevExp ++ zeros 1 ++ leBytes 2 t.dwell
    ++ leBytes 2 (unsignedOf 16 t.anchor) ++ leBytes 2 (unsignedOf 16 t.prevAnchor) ++ leBytes 2 t.bind.chCount ++ leBytes 4 first
    ++ ((List.range 16).flatMap fun i => leBytes 4 (t.hist.getD i 0).toNat)
    ++ (t.ctr.toList.flatMap fun v => leBytes 8 v) ++ zeros 16

/-- The tracker entries, with running channel indexes. -/
def trackerEntries : Nat → List (Nat × Nat × Tracker) → Bytes
  | _, [] => []
  | first, (_, _, t) :: rest => t.entry first ++ trackerEntries (first + t.bind.chCount) rest

/-- The directory: each checkpoint-table entry with the offset of its data in the shard. -/
def dirEntries : Nat → List CkptEntry → Bytes
  | _, [] => []
  | off, e :: rest =>
    leBytes 1 e.kind ++ zeros 3 ++ leBytes 4 e.name ++ leBytes 8 e.first ++ leBytes 8 e.bytes ++ leBytes 8 off
      ++ dirEntries (off + e.bytes) rest

/-- The definition digests of the loaded stations, in ascending station number (R563). -/
def State.stationDigests (s : State) : Bytes :=
  s.stations.flatMap fun (i, t) => leBytes 2 i ++ zeros 14 ++ shake256 t.img.defImage 32

def State.seedTable (s : State) : Bytes := (List.range 16).flatMap fun j => fitBytes 32 (s.job.seeds.get [] j)

def State.seedMask (s : State) : Nat :=
  (List.range 16).foldl (fun m j => if (s.job.seeds.find j).isSome then m + 2 ^ j else m) 0

/-- CK_GEN (R566): the newest generation in BUILT or CURRENT. -/
def State.newestBuilt (s : State) : Nat :=
  let c := s.commits
  if s.slotState (c % 3) == 2 || s.slotState (c % 3) == 3 then c else c - 1

/-- The value of a generation knot. -/
def State.genValue (s : State) (i : Nat) : Nat := match s.genKnot with | some g => (s.knot (g + i)).value.toNat | none => 0

/-- The head of the shard that is opened at job position `pos`, and the length of the whole shard. -/
def State.buildHead (s : State) (ct : CkptTable) (id : W64) (pos : Nat) : Bytes × Nat :=
  let trks := s.boundTrackers
  let chans := trks.flatMap fun (k, _, t) => s.channelsOf k t
  let parts (len : Nat) : Bytes :=
    pad64 s.stationDigests ++ pad64 (s.loadNew ct.resumeAddr ct.resumeLen) ++ pad64 (trackerEntries 0 trks)
      ++ pad64 (chans.flatMap Channel.entry) ++ pad64 (dirEntries len ct.entries)
  let len := roundUp (0x280 + (parts 0).length) 65536
  let total := ct.entries.foldl (fun n e => n + e.bytes) len
  let solo := match s.job.mapping with | some m => m.solo | none => true
  let hdr (crc : Nat) : Bytes :=
    leBytes 1 1 ++ leBytes 1 (b2n solo) ++ leBytes 2 s.ownRank ++ leBytes 4 crc ++ leBytes 8 id.toNat ++ leBytes 8 pos
      ++ leBytes 8 s.newestBuilt ++ leBytes 8 (s.genValue 5) ++ leBytes 8 (s.genValue 6) ++ leBytes 8 (s.genValue 7)
      ++ leBytes 4 len ++ leBytes 4 trks.length ++ leBytes 4 chans.length ++ leBytes 4 ct.entries.length
      ++ leBytes 4 s.stations.length ++ leBytes 4 ct.resumeLen ++ leBytes 8 total ++ leBytes 2 s.seedMask ++ zeros 38
      ++ s.seedTable
  let body := parts len
  let crc := (crc32c (fitBytes len (hdr 0 ++ body))).toNat
  (fitBytes len (hdr crc ++ body), total)

/-! ### Opening (R380, R383, R535, R565–R567) -/

/-- A snapshot's operation ends with BULK_ABORT (R383, R536). One whose session has not been opened yet opens it to say so, and the session
closes once that is said (R503, R509; log entry 126). -/
def State.abortSnapOp (s : State) (id : W64) (err : W16) : State :=
  match s.findOp id with
  | none => s
  | some o =>
    if !o.live || o.obj != .snapshot then s
    else if o.session.isSome then s.failOp id err true
    else
      let s := (s.failOp id err false).openSession 2 o.plane o.peer 0 id
      match s.helloSlot id with
      | some i => s.send i ⟨0x0303, 0, leBytes 8 id.toNat ++ leBytes 2 err.toNat⟩
      | none => s

/-- A refused open (R383): nothing is protected, and the operation it names ends. -/
def State.refuseSnap (s : State) (id op : W64) (err : W16) : State :=
  let s := { s with snap := { s.snap with err := err } }
  let s := s.raise pgSNP 2 (id.toNat % 2 ^ 32)
  (s.abortSnapOp op err).sendStatus 9 err id.toNat

/-- A tracker step in progress at the edge completes first (R565). -/
def State.finishSteps (s : State) : State :=
  s.boundTrackers.foldl (fun s (k, j, t) => if t.stepping then s.stepTracker k j else s) s

/-- The open itself (R565): pages PROTECTED, resume area and trackers captured in the head, the stream's session opened. -/
def State.startSnap (s : State) (ct : CkptTable) (id op : W64) : State :=
  let s := s.finishSteps.demandRead ct.resumeAddr ct.resumeLen
  let (head, total) := s.buildHead ct id s.jobPos
  let pages := s.snapSet.flatMap fun e => (List.range e.2).map (· + e.1 / 65536)
  let x := s.snap
  let slots := ((List.range x.poolPages).filter fun i => !(x.used.contains i)).take (head.length / 65536)
  let s := slots.zipIdx.foldl (fun (s : State) (i, j) => s.poke (x.poolAddr i) ((head.drop (65536 * j)).take 65536)) s
  let s := { s with snap := { s.snap with
    state := .opened, err := 0, id := id, op := op, used := x.used ++ slots, todo := pages, reading := none, head := head,
    pages := pages.foldl (fun (t : Tbl PageState) p => t.put p .guarded) [] } }
  let s := s.resetCounters pgSNP [0x5C, 0x60]
  match s.findOp op with
  | none => s
  | some o => (s.putOp { o with length := total, stream := [], pos := s.jobPos }).openOp op

/-- SNAP_OPEN where it runs. `was` lists the slots that were BUILDING before the edge (R566). -/
def State.openSnap (s : State) (id op : W64) (was : List Nat) : State :=
  if s.snap.state == .opened then s.refuseSnap id op 0x030A else
  match s.findOp op, s.job.ckpt with
  | some o, some ct =>
    if o.obj != .snapshot || o.state != .created then s.refuseSnap id op 0x0307
    else if inStaging (quoinBase + s.snap.setBase) (16 * ct.entries.length) then s.refuseSnap id op 0x0305
    else if !s.setValid then s.refuseSnap id op 0x0307
    else if was.any fun j => s.slotState j == 1 then
      let s := { s with snap := { s.snap with state := .abandoned, err := 0x030C, id := id, op := op } }
      ((s.raise pgSNP 2 (id.toNat % 2 ^ 32)).abortSnapOp op 0x030C).sendStatus 9 0x030C id.toNat
    else s.startSnap ct id op
  | _, _ => s.refuseSnap id op 0x0307

/-- A SNAP_OPEN that falls due while the job is STOPPED (R536). -/
def State.skipSnap (s : State) (id op : W64) : State :=
  let s := if s.snap.state == SnapState.opened && s.snap.op == op then s else s.abortSnapOp op 0x0309
  s.sendStatus 9 0x0309 id.toNat

/-- A SNAP_OPEN that falls due during a sag: its snapshot is abandoned, as SNP_STAT and the ABANDONED event show, and one that is open goes on
(R384, R597). -/
def State.pausedSnap (s : State) (id op : W64) : State :=
  let s := s.skipSnap id op
  let s := if s.snap.state == .opened then s else { s with snap := { s.snap with state := .abandoned, err := 0x0309, id := id, op := op } }
  s.raise pgSNP 1 (id.toNat % 2 ^ 32)

/-! ### The rows (R381, R382, R384) -/

/-- SNAP_PROTECTED_WRITE (R381, R384): for a write that waits on a PROTECTED page the engine takes a pool page and begins the copy; with
none free the write waits for one. -/
def execSnapProtectedWrite (page : Nat) (s : State) : Host.Outcome State Fault Refusal :=
  .next (
    let here (w : WaitWrite) : Bool := w.pages.contains page
    if s.paused || s.snap.pages.find page != some .guarded || !(s.snap.waits.any here) then s else
    let x := s.snap
    match x.freeSlot with
    | some i =>
      let waits := x.waits.map fun (w : WaitWrite) => if here w then { w with forPool := false } else w
      { s with snap := { x with used := x.used ++ [i], pages := x.pages.put page (.copying i), waits := waits } }
    | none =>
      let first := !(x.waits.any fun w => here w && w.forPool)
      let waits := x.waits.map fun (w : WaitWrite) => if here w then { w with forPool := true } else w
      let s := { s with snap := { x with waits := waits } }
      if first then s.raise pgSNP 3 page else s)

/-- SNAP_COPY_DONE (R381): the page is COPIED and its writes proceed. -/
def execSnapCopyDone (page : Nat) (s : State) : Host.Outcome State Fault Refusal :=
  .next (
    match s.snap.pages.find page with
    | some (.copying i) =>
      if s.paused then s else
      (((s.demandRead (65536 * page) 65536).poke (s.snap.poolAddr i) (s.load (65536 * page) 65536)).count pgSNP 0x5C 1).pageTo page (some (.copied i))
    | _ => s)

/-- The operation's window has room for one more page (R506). -/
def State.snapRoom (s : State) : Bool :=
  match s.findOp s.snap.op with
  | some o => decide (o.stream.length + 65536 ≤ o.journal + s.bulkWindow)
  | none => false

/-- A page's bytes enter the sender's window, which pool page `slot` holds from now on (R506). -/
def State.streamBytes (s : State) (slot : Nat) (bs : Bytes) : State :=
  match s.findOp s.snap.op with
  | some o => (State.putOp (s.poke (s.snap.poolAddr slot) bs) { o with stream := o.stream ++ bs, window := o.window ++ [slot] }).pump o.id
  | none => s

/-- A copy is being made; the stream begins no page meanwhile (R382). -/
def Snapshot.copying (x : Snapshot) : Bool := x.pages.any fun kv => match kv.2 with | .copying _ => true | _ => false

/-- The next page of the head enters the window from its pool page; one that reads with UNCORR twice abandons the snapshot (R368, R384). A
page of the head that found no free pool page when the snapshot was opened takes one now (log entry 125). -/
def State.streamHead (s : State) : State :=
  let x := s.snap
  let next (s : State) (i : Nat) (bs : Bytes) : State := State.streamBytes { s with snap := { s.snap with head := x.head.drop 65536 } } i bs
  match s.headSlots, x.freeSlot with
  | i :: _, _ =>
    let a := x.poolAddr i
    if s.uncorr a 65536 then ((s.demandRead a 65536).demandRead a 65536).abandonSnap 0x0309
    else next (s.demandRead a 65536) i (s.load a 65536)
  | [], some i => next { s with snap := { x with used := x.used ++ [i] } } i (x.head.take 65536)
  | [], none => s

/-- SNAP_STREAM_PAGE (R381–R383, R565): a page of the head enters the window, or the stream reaches the next page of the set. -/
def execSnapStreamPage (s : State) : Host.Outcome State Fault Refusal :=
  .next (
    let x := s.snap
    if s.paused || x.state != .opened || x.reading.isSome || x.copying then s
    else if !x.head.isEmpty then
      if !s.snapRoom then s else
      s.streamHead
    else match x.todo with
      | [] => s
      | p :: rest =>
        match x.pages.find p with
        | some .guarded => { s with snap := { x with todo := rest, reading := some p, pages := x.pages.put p .streaming } }
        | some (.copied _) => { s with snap := { x with todo := rest, reading := some p } }
        | _ => s)

/-- The last page has been streamed (R383, R559, R575). SNAP_DONE gives the job position of the open. -/
def State.snapEnd (s : State) : State :=
  if s.snap.todo.isEmpty && s.snap.head.isEmpty && s.snap.reading.isNone && s.snap.state == .opened then
    let s := { s with snap := { s.snap with state := .done, ckpt := s.snap.id } }
    let pos := match s.findOp s.snap.op with | some o => o.pos | none => s.jobPos
    (s.raise pgSNP 0 (s.snap.id.toNat % 2 ^ 32)).sendStatusAt 8 0 s.snap.id.toNat pos
  else s

/-- SNAP_STREAM_READ_DONE (R381, R383, R384, R506): the page's bytes enter the window, in a free pool page, and it is FREE; a pool copy that
reads with UNCORR twice abandons the snapshot. -/
def execSnapStreamReadDone (s : State) : Host.Outcome State Fault Refusal :=
  .next (
    match s.snap.reading with
    | none => s
    | some p =>
      if s.paused || !s.snapRoom then s else
      let done (s : State) (a : Nat) : State :=
        match s.snap.freeSlot with
        | none => s
        | some slot =>
          let bs := s.load a 65536
          let s := s.demandRead a 65536
          let s := { s with snap := { s.snap with reading := none, used := s.snap.used ++ [slot] } }
          (((s.pageTo p none).streamBytes slot bs).count pgSNP 0x60 1).snapEnd
      match s.snap.pages.find p with
      | some .streaming => done s (65536 * p)
      | some (.copied i) =>
        let a := s.snap.poolAddr i
        if s.uncorr a 65536 then ((s.demandRead a 65536).demandRead a 65536).abandonSnap 0x0309
        else done { s with snap := { s.snap with used := s.snap.used.filter (· != i) } } a
      | _ => s)

/-- SNAP_POOL_TIMEOUT (R384): a write has waited for a pool page as long as SNP_POOL_TIMEOUT allows. -/
def execSnapPoolTimeout (s : State) : Host.Outcome State Fault Refusal :=
  .next (if !s.paused && s.snap.waits.any fun w => w.forPool then s.abandonSnap 0x0309 else s)

/-! ### A restored head (R568–R570) -/

/-- Offsets of the parts of a head, from its header's counts: digests, resume block, trackers, channels, directory, end. -/
structure HeadMap where
  digests : Nat
  resume : Nat
  trackers : Nat
  channels : Nat
  dir : Nat
  stop : Nat
deriving DecidableEq, Repr

def headMap (h : Bytes) : HeadMap :=
  let d := 0x280
  let r := d + roundUp (48 * leAt h 0x048 4) 64
  let t := r + roundUp (leAt h 0x04C 4) 64
  let c := t + roundUp (192 * leAt h 0x03C 4) 64
  let i := c + roundUp (24 * leAt h 0x040 4) 64
  ⟨d, r, t, c, i, i + roundUp (32 * leAt h 0x044 4) 64⟩

def isZero (bs : Bytes) : Bool := bs.all (· == 0)

/-- Bytes `off` to `off + n - 1`. -/
def part (h : Bytes) (off n : Nat) : Bytes := (h.drop off).take n

/-- Reserved fields of the header and of the parts are zero. -/
def headReservedOk (h : Bytes) : Bool :=
  let m := headMap h
  decide ((h.getD 1 0).toNat < 2) && isZero (part h 0x05A 38)
    && ((List.range (leAt h 0x048 4)).all fun i => isZero (part h (m.digests + 48 * i + 2) 14))
    && ((List.range (leAt h 0x03C 4)).all fun i =>
      let a := m.trackers + 192 * i
      isZero (part h (a + 2) 2) && isZero (part h (a + 0x13) 1) && isZero (part h (a + 0xB0) 16))
    && ((List.range (leAt h 0x040 4)).all fun i => isZero (part h (m.channels + 24 * i + 20) 4))
    && ((List.range (leAt h 0x044 4)).all fun i => isZero (part h (m.dir + 32 * i + 1) 3))

/-- A tracker entry names the binding. -/
def entryMatches (h : Bytes) (a : Nat) (b : Binding) : Bool :=
  leAt h a 2 == b.station && leAt h (a + 4) 4 == b.tensor && leAt h (a + 8) 3 == b.col0 && leAt h (a + 11) 3 == b.coln

/-- Step 6: each entry matches exactly one binding, and every binding is matched. -/
def State.trackersMatch (s : State) (h : Bytes) : Bool :=
  let m := headMap h
  let ents := (List.range (leAt h 0x03C 4)).map fun i => m.trackers + 192 * i
  let binds := s.boundTrackers
  (ents.all fun a => (binds.filter fun b => entryMatches h a b.2.2.bind).length == 1)
    && (binds.all fun b => ents.any fun a => entryMatches h a b.2.2.bind)

/-- Step 7: the directory equals the checkpoint table. -/
def dirMatches (h : Bytes) (ct : CkptTable) : Bool :=
  let m := headMap h
  leAt h 0x044 4 == ct.entries.length && leAt h 0x04C 4 == ct.resumeLen
    && ((ct.entries.zipIdx).all fun (e, i) =>
      let a := m.dir + 32 * i
      leAt h a 1 == e.kind && leAt h (a + 4) 4 == e.name && leAt h (a + 8) 8 == e.first && leAt h (a + 16) 8 == e.bytes)

/-- The checks of a staged head, in order (R569); `none` where all pass. -/
def State.headCheck (s : State) (h : Bytes) : Option W16 :=
  let rank := match s.job.mapping with | some m => m.rank | none => 0
  let commits := match s.job.mapping with | some m => m.commits.toNat | none => 0
  if crc32c (patch h 4 (zeros 4)) != BitVec.ofNat 32 (leAt h 4 4) then some 0x0301
  else if h.getD 0 0 != 1 || decide (2 ^ 24 < leAt h 0x038 4) || !headReservedOk h then some 0x0114
  else if leAt h 2 2 != rank || leAt h 0x018 8 != commits then some 0x0114
  else if part h 0x080 512 != s.seedTable || leAt h 0x058 2 != s.seedMask then some 0x0114
  else if part h (headMap h).digests (48 * leAt h 0x048 4) != s.stationDigests then some 0x0114
  else if !s.trackersMatch h then some 0x0114
  else match s.job.ckpt with
    | some ct => if dirMatches h ct then none else some 0x0114
    | none => some 0x0114

/-- A tracker as its entry gives it (R570). -/
def Tracker.restore (t : Tracker) (h : Bytes) (a : Nat) : Tracker :=
  { t with
    epoch := BitVec.ofNat 16 (leAt h (a + 0x0E) 2), state := leAt h (a + 0x10) 1, exp := leAt h (a + 0x11) 1,
    prevExp := leAt h (a + 0x12) 1, dwell := leAt h (a + 0x14) 2, anchor := signedOf 16 (leAt h (a + 0x16) 2),
    prevAnchor := signedOf 16 (leAt h (a + 0x18) 2),
    hist := (List.range 16).map fun i => BitVec.ofNat 32 (leAt h (a + 0x20 + 4 * i) 4),
    ctr := Counts.ofList ((List.range 10).map fun i => leAt h (a + 0x60 + 8 * i) 5),
    cur := { t.cur with reports := 0 } }

/-- A channel entry as the head gives it. No host write stands for the next epoch, so the restored factor goes on (R228). -/
def Channel.restore (c : Channel) (h : Bytes) (a : Nat) : Channel :=
  { c with lo := BitVec.ofNat 32 (leAt h a 4), hi := BitVec.ofNat 32 (leAt h (a + 4) 4), clipped := leAt h (a + 8) 3,
           flat := bit (leAt h (a + 11) 1) 0, factor := BitVec.ofNat 32 (leAt h (a + 12) 4),
           prevFactor := BitVec.ofNat 32 (leAt h (a + 16) 4), nextFactor := BitVec.ofNat 32 (leAt h (a + 12) 4) }

/-- The tracker that an entry names, and its channels, take the captured values. -/
def State.restoreEntry (s : State) (h : Bytes) (a : Nat) : State :=
  match s.boundTrackers.find? fun b => entryMatches h a b.2.2.bind with
  | none => s
  | some (k, j, t) =>
    let first := leAt h (a + 0x1C) 4
    let n := min (leAt h (a + 0x1A) 2) t.bind.chCount
    let x := s.skein k
    let chans := (List.range n).foldl (fun (c : Tbl Channel) i =>
      let key := t.bind.chBase + i
      c.set Channel.reset key ((c.get Channel.reset key).restore h ((headMap h).channels + 24 * (first + i)))) x.channels
    s.setSkein k { x with channels := chans, trackers := x.trackers.put j (t.restore h a) }

/-- R570: the resume block, the three generation knots, the trackers and their channels. -/
def State.applyHead (s : State) (h : Bytes) (ct : CkptTable) : State :=
  let m := headMap h
  let s := s.store ct.resumeAddr (part h m.resume ct.resumeLen) none
  let setGen (s : State) (i off : Nat) : State :=
    match s.genKnot with
    | some g => s.knotWrite (g + i) 1 (BitVec.ofNat 64 (leAt h off 8)) unitReq
    | none => s
  let s := setGen (setGen (setGen s 5 0x020) 6 0x028) 7 0x030
  let s := (List.range (leAt h 0x03C 4)).foldl (fun s i => s.restoreEntry h (m.trackers + 192 * i)) s
  { s with snap := { s.snap with restCkpt := BitVec.ofNat 64 (leAt h 8 8), rState := 3, rErr := 0 } }

end Sys2Proof.Machine
end

