-- ==== Sys2Proof/Machine/Gen.lean ====
section
/-!
DEFINITION. The generation engine (R395–R414, R431, R432, R695): slot transitions, votes, the applying, deferring and completing
of a commit, and releases.
-/
namespace Sys2Proof.Machine

/-- The engine's operation on a slot knot: state and serial change in one operation and SK_PINS stays (R397). -/
def State.setSlot (s : State) (j st serial : Nat) : State :=
  match s.genKnot with
  | none => s
  | some g => s.knotWrite (g + j) 1 (skValue st serial (skPins (s.slotKnot j))) unitReq

/-- MP_DEFER_WARN, MP_VOTE_LEAD and SOLO of the loaded mapping. -/
def State.deferWarn (s : State) : Nat := match s.job.mapping with | some m => m.deferWarn | none => 1
def State.mapLead (s : State) : Nat := match s.job.mapping with | some m => m.voteLead | none => 0
def State.soloJob (s : State) : Bool := match s.job.mapping with | some m => m.solo | none => false

/-! ### Votes (R409) -/

/-- The slot of the generation that a commit would make current: the BUILT one, else the one in BUILDING. -/
def State.voteSlot (s : State) : Option Nat := match s.slotIn 2 with | some j => some j | none => s.slotIn 1

/-- READY: the slot is BUILT, and the slot of n − 2 is EMPTY, or PREVIOUS without pins. -/
def State.voteReady (s : State) : Bool :=
  match s.slotIn 2 with
  | none => false
  | some j =>
    let o := (j + 1) % 3
    s.slotState o == 0 || (s.slotState o == 4 && skPins (s.slotKnot o) == 0)

/-! ### Releases (R405, R695) -/

/-- A release action while a generation is CURRENT: the admission record, then the admission knot. -/
def State.runRelease (s : State) (k count : Nat) : State :=
  let serial := match s.slotIn 3 with | some j => s.slotSerial j | none => 0
  let rec_ := leBytes 8 s.gen.relSum ++ leBytes 4 count ++ leBytes 3 serial ++ zeros 1
  let ring := match s.job.mapping with | some m => m.admitRing | none => 0
  let s := if ring == 0 then s else s.poke (ring + 16 * (s.gen.relSeq % 256)) rec_
  let s := { s with gen := { s.gen with relSeq := s.gen.relSeq + 1, relSum := (s.gen.relSum + count) % 2 ^ 64 } }
  s.unitAdd k (BitVec.ofNat 64 count)

/-- An entry that runs LATE (R537): the mark on the entry where it is still there; LATE counts and its event is raised on both pages
that have one, EVT and TRD (DEDUCED, assumption 61). -/
def State.markLate (s : State) (i : Nat) : State :=
  let e := s.evt.entries.get EvEntry.reset i
  let s := if e.valid then { s with evt := { s.evt with entries := s.evt.entries.set EvEntry.reset i { e with late := true } } }
    else s
  ((s.count pgEVT 0x68 1).count pgTRD 2 1).raise pgEVT 0 i |>.raise pgTRD 2 i

/-- The held occurrences run, LATE, in the order in which they fell due. -/
def State.runHeld (s : State) : State :=
  let l := s.gen.held
  l.foldl (fun s h => (s.runRelease h.knot h.count).markLate h.entry) { s with gen := { s.gen with held := [] } }

/-! ### Decisions (R410, R411, R414) -/

/-- DRAIN on every skein with records of `g` or older pending (R183, R410). -/
def State.setDrains (s : State) (g : Nat) : State :=
  s.sk.foldl (fun s kx =>
    if kx.2.drainCount g == 0 then s
    else (s.setSkein kx.1 { kx.2 with drain := true, drainGen := g }).raise (pgSKN kx.1) 0 g) s

/-- A commit can complete: DRAIN has ended on every skein, and a CLOSING slot has no pins. -/
def State.canComplete (s : State) : Bool :=
  !(s.sk.any fun kx => kx.2.drain) && (match s.slotIn 5 with | some j => skPins (s.slotKnot j) == 0 | none => true)

/-- The completion of the applied commit of generation `n`, `us` microseconds after P (R398, R401, R410, R432). -/
def State.completeCommit (s : State) (n us : Nat) : State :=
  let j := (n + 1) % 3
  let s := if s.slotState j == 5 then s.setSlot j 0 (s.slotSerial j) else s
  let s := match s.genKnot with | some g => s.knotWrite (g + 3) 0 1 unitReq | none => s
  let s := s.setSlot j 1 ((n + 1) % 2 ^ 24)
  let s := { s with gen := { s.gen with applied := none, drainUs := us % 2 ^ 32,
                                        phase := if s.gen.vote.isSome then .voted else .idle } }
  s.genEvent 16 (BitVec.ofNat 64 s.commits)

/-- COMMIT applied `us` microseconds after P (R410): slots advance in the order given, DRAIN is set, and with nothing to wait for the commit
completes. -/
def State.applyCommit (s : State) (us : Nat) : State :=
  match s.voteSlot with
  | none => s
  | some j =>
    let n := s.commits
    let p := (j + 2) % 3
    let o := (j + 1) % 3
    let s := s.setSlot j 3 (s.slotSerial j)
    let s := if s.slotState p == 3 then s.setSlot p 4 (s.slotSerial p) else s
    let s := if s.slotState o == 4 then s.setSlot o 5 (s.slotSerial o) else s
    let s := s.setDrains ((n + 65535) % 65536)
    let s := s.resetCounter pgTRD 0x210
    let s := { s with gen := { s.gen with applied := some n, phase := .applied, deferRun := 0 } }
    let s := if s.canComplete then s.completeCommit n us else s
    s.runHeld

/-- DEFER applied (R410, R414). -/
def State.applyDefer (s : State) : State :=
  let s := (s.count pgTRD 0x20C 1).count pgTRD 0x210 1
  let run := s.gen.deferRun + 1
  let s := { s with gen := { s.gen with deferRun := run, phase := if s.gen.applied.isSome then .applied else .idle } }
  let s := s.genEvent 17 (BitVec.ofNat 64 s.commits)
  if run % max 1 s.deferWarn == 0 then s.genEvent 18 (BitVec.ofNat 64 s.commits) else s

/-- The open vote is decided by an entry that runs, at P or, where P has passed, later: then the state does not hold how long after P
(R431, R597; log entry 114), and PHASE reads LATE where the decision came after P (R411). -/
def State.decideVote (s : State) (commit passed : Bool) : State :=
  let late := passed && s.trd.heldLate
  let s := { s with gen := { s.gen with vote := none }, trd := { s.trd with heldDecision := none, heldLate := false } }
  let s :=
    if !commit then s.applyDefer
    else if passed then (let (i, s) := s.draw; s.applyCommit (Config.lateUs i))
    else s.applyCommit 0
  if late then { s with gen := { s.gen with phase := .late } } else s

/-- The open vote is decided after P: applied at once, and LATE is set, as PHASE shows it, counted and raised (R411). How long after P the
decision came between two beat edges the state does not hold; DRAIN_US of a commit that completes at once is open then (log entry 114). -/
def State.decideLate (s : State) (commit : Bool) : State :=
  let (i, s) := s.draw
  let s := { s with gen := { s.gen with vote := none }, trd := { s.trd with heldDecision := none, heldLate := false } }
  let s := if commit then s.applyCommit (Config.lateUs i) else s.applyDefer
  let s := { s with gen := { s.gen with phase := .late } }
  (s.count pgTRD 2 1).raise pgTRD 2 s.commits

/-! ### The rows -/

/-- GEN_SLOT_BUILT (R400): BUILD has reached the target of the generation that is BUILDING. -/
def execGenSlotBuilt (s : State) : Host.Outcome State Fault Refusal :=
  .next (
    match s.job.mapping with
    | none => s
    | some m =>
      let n := s.commits
      let t := (n + 1) * m.buildInc.toNat % 2 ^ 64
      if !s.jobLive || s.paused || s.slotState (n % 3) != 1 || decide (2 ^ 63 ≤ (s.build + 2 ^ 64 - t) % 2 ^ 64) then s
      else s.setSlot (n % 3) 2 (s.slotSerial (n % 3)))

/-- COMMIT_COMPLETE (R410): the last drain has ended and the CLOSING slot has no pins. -/
def execCommitComplete (us : Nat) (s : State) : Host.Outcome State Fault Refusal :=
  .next (
    match s.gen.applied with
    | some n => if s.jobLive && !s.paused && s.canComplete then s.completeCommit n us else s
    | none => s)

/-- COMMIT_UNDECIDED (R411): no decision has come by P + MP_VOTE_LEAD. -/
def execCommitUndecided (s : State) : Host.Outcome State Fault Refusal :=
  .next (
    match s.gen.vote with
    | some v => if s.jobLive && !s.paused && decide (v.pos + s.mapLead ≤ s.jobPos) then s.stopUnit 0x0801 0 else s
    | none => s)

end Sys2Proof.Machine
end

