-- ==== Sys2Proof/Machine/Wear.lean ====
section
/-!
DEFINITION. The wear unit (R660, R661, R669): measured values, the predictions over their history, and the writes of the keep store.
-/
namespace Sys2Proof.Machine

/-! ### Wear predictions (R660, R661, R669) -/

/-- The limit of an indicator, and whether it lies above the values of a new module. -/
def wearLimit (ind : Nat) : Int × Bool :=
  if ind < 6 then (40000, true) else if ind == 6 then (900, true) else if ind == 7 then (600, false) else (12, false)

/-- An indicator has crossed its limit. -/
def wearOver (ind : Nat) (v : Int) : Bool :=
  let l := wearLimit ind
  if l.2 then decide (l.1 ≤ v) else decide (v < l.1)

/-- The least-squares line through samples at days 1 to n: n Σ t y − Σ t Σ y and n Σ t² − (Σ t)², whose quotient is the slope, and Σ y
and Σ t. -/
def lineFit (l : List Int) : Int × Int × Int × Int :=
  let ts := l.zipIdx.map fun (y, i) => ((i : Int) + 1, y)
  let n : Int := l.length
  let st := ts.foldl (fun a p => a + p.1) 0
  let sy := ts.foldl (fun a p => a + p.2) 0
  let sty := ts.foldl (fun a p => a + p.1 * p.2) 0
  let stt := ts.foldl (fun a p => a + p.1 * p.1) 0
  (n * sty - st * sy, n * stt - st * st, sy, st)

/-- Days from the last sample until the fitted line crosses the limit; a part of a day may count as one more. -/
def lineDays (l : List Int) (limit : Int) (up : Bool) : Nat :=
  let n : Int := l.length
  let f := lineFit l
  let b := f.1
  let d := f.2.1
  if if up then b ≤ 0 else 0 ≤ b then 0xFFFFFFFF
  else
    -- limit = (Σ y) / n + b / d · (t − (Σ t) / n), so t = (Σ t) / n + (limit · n − Σ y) · d / (n · b)
    let num := (limit * n - f.2.2.1) * d + f.2.2.2 * b
    let den := n * b
    let (num, den) := if den < 0 then (-num, -den) else (num, den)
    let whole := num / den
    let part := num % den
    min 0xFFFFFFFD (whole - n + (if part != 0 && Config.wearRound l then 1 else 0)).toNat

/-- WEAR_EOL and WEAR_EOL90 of an indicator, by all its samples and its latest value. -/
def wearPredict (ind : Nat) (samples : List Int) (v : Int) : Nat × Nat :=
  let lim := wearLimit ind
  let l := samples.drop (samples.length - 180)
  if samples.length < 14 then (0xFFFFFFFE, 0xFFFFFFFE)
  else if wearOver ind v then (0, 0)
  else
    let eol := if ind < 6 then min 0xFFFFFFFF (Config.wearDays false l lim.1) else lineDays l lim.1 lim.2
    (eol, if eol == 0xFFFFFFFF then 0xFFFFFFFF else min 0xFFFFFFFF (Config.wearDays true l lim.1))

/-- Daily samples of an indicator that the history holds. -/
def State.samplesOf (s : State) (ind : Nat) : List Int := (s.wear.history.filter fun w => w.ind == ind).map (·.value)

/-- An indicator's predictions by the value `v` that it has now, and the events: ALERT as WEAR_EOL90 first falls below the horizon, EOL as the
indicator crosses its limit. -/
def State.wearJudge (s : State) (ind : Nat) (v : Int) : State :=
  let p := wearPredict ind (s.samplesOf ind) v
  let near := decide (p.2 < s.wear.alertDays)
  let isOver := wearOver ind v
  let wasNear := bit s.wear.alert ind
  let wasOver := bit s.wear.crossed ind
  let mark (m : Nat) (on : Bool) : Nat := if on == bit m ind then m else if on then m + 2 ^ ind else m - 2 ^ ind
  let s := { s with wear := { s.wear with eol := s.wear.eol.set 0xFFFFFFFE ind p.1, eol90 := s.wear.eol90.set 0xFFFFFFFE ind p.2,
                                          alert := mark s.wear.alert near, crossed := mark s.wear.crossed isOver } }
  let s := if near && !wasNear then s.raise pgWEAR 0 ind else s
  if isOver && !wasOver then s.raise pgWEAR 1 ind else s

/-- A wear indicator takes a measured value. -/
def State.wearPut (s : State) (ind : Nat) (v : Int) : State :=
  State.wearJudge { s with wear := { s.wear with latest := s.wear.latest.put ind v, ageH := s.wear.ageH.put ind 0 } } ind v

/-- Each write of the keep store measures indicator 6 anew (R660); by how much one write moves the mean erase count the spec does not say
(log entry 122). -/
def State.keepWritten (s : State) : State :=
  let (i, s) := s.draw
  s.wearPut 6 (Config.keepErase i)

end Sys2Proof.Machine
end

