-- ==== Sys2Proof/Machine/Maint.lean ====
section
/-!
DEFINITION. The maintenance arbiter (R588, R598, R660–R666): requests, conflicts, windows, the end of an activity and what it
measured; and the scrubs (R369–R372) with the memory controllers' other events (R29, R31, R363).
-/
namespace Sys2Proof.Machine

/-! ### Conflicts (R663, R665) -/

/-- The plane of a port: 0 A, 1 B, 2 management (R433). -/
def portPlane (p : Nat) : Nat := if p < 4 then 0 else if p < 8 then 1 else 2

/-- The plane of the snapshot's stream. -/
def State.snapPlane (s : State) : Nat := match s.findOp s.snap.op with | some o => o.plane | none => 0

/-- The exclusion matrix, for activities that do not depend on a plane. -/
def excludes (a b : Nat) : Bool :=
  (a == b && decide (1 ≤ a)) || [(1, 3), (3, 1), (1, 5), (5, 1)].contains (a, b)

/-- A BULK session is open on a plane (R663). -/
def State.bulkOn (s : State) (plane : Nat) : Bool :=
  s.mrn.sessions.any fun kv => kv.2.kind == 2 && kv.2.plane == plane && (kv.2.live || kv.2.state == .DR)

/-- A request conflicts with what runs now. -/
def State.mntConflict (s : State) (r : MntReq) : Bool :=
  let run := s.maint.running
  (run.any fun q => excludes r.act q.act)
    || (r.act == 2 && ((run.any fun q => q.act == 4 && s.snapPlane == portPlane r.port) || s.bulkOn (portPlane r.port)))
    || (r.act == 1 && (s.sag.state != .armed || s.trust.slotWrite.isSome || decide (s.power.vin < 42000)))

/-- An activity that needs a window has one, or no job is loaded (R665). -/
def State.mntWindow (s : State) (act : Nat) : Bool :=
  !s.jobLoaded || !(act == 1 || act == 2 || act == 5) || (match s.maint.window with | some m => bit m act | none => false)

/-- The port leaves the rotation for a scan, or rejoins it (R446, R662, R664). -/
def State.scanPort (s : State) (p : Nat) (on : Bool) : State :=
  if 8 ≤ p then s else
  let x := s.port p
  s.setPort p { x with inSpray := on && x.linkUp && x.fecLock }

/-- An activity starts. -/
def State.mntStart (s : State) (r : MntReq) : State :=
  let s := { s with maint := { s.maint with running := s.maint.running ++ [r] } }
  if r.act == 2 then s.scanPort r.port false else s

/-- The waiting requests are examined in order (R664). -/
def State.mntExamine (s : State) : State :=
  s.maint.waiting.foldl (fun s r =>
    if s.mntConflict r || !(s.mntWindow r.act) then s
    else State.mntStart { s with maint := { s.maint with waiting := s.maint.waiting.erase r } } r) s

/-- A refusal or abandonment is recorded in MNT_LAST (R670). -/
def State.mntLast (s : State) (act : Nat) (err : W16) : State :=
  { s with maint := { s.maint with lastErr := err, lastAct := act } }

/-- A refused request is counted and raises REFUSED (R664). -/
def State.mntRefuse (s : State) (act : Nat) (err : W16) : State :=
  ((s.mntLast act err).count pgMNT 0x58 1).raise pgMNT 0 act

/-- A request (R664, R665): merged, refused, started or left waiting. -/
def State.mntRequest (s : State) (r : MntReq) : State :=
  if (s.maint.running ++ s.maint.waiting).any fun q => q.act == r.act then s.count pgMNT 0x54 1
  else if r.act == 6 && s.jobLoaded then s.mntRefuse 6 0x0902
  else if s.mntConflict r || !(s.mntWindow r.act) then { s with maint := { s.maint with waiting := s.maint.waiting ++ [r] } }
  else s.mntStart r

/-- SNAP_STREAM starts at once, and a scan on its plane is aborted and requested again (R664). -/
def State.snapPreempt (s : State) : State :=
  let s := { s with maint := { s.maint with running := s.maint.running.filter (fun q => q.act != 4) ++ [(⟨4, 0, false⟩ : MntReq)] } }
  match s.maint.running.find? fun q => q.act == 2 && s.snapPlane == portPlane q.port with
  | none => s
  | some q =>
    let s := { s with maint := { s.maint with running := s.maint.running.erase q } }
    let s := ((s.scanPort q.port true).count pgMNT 0x5C 1).raise pgMNT 1 2
    s.mntRequest q

/-! ### Windows (R535, R665) -/

/-- MAINT_OPEN: a window of `beats` for the activities of the mask. -/
def State.openWindow (s : State) (beats mask : Nat) : State :=
  State.mntExamine { s with maint := { s.maint with window := some mask, windowEnd := (s.trd.tpos + beats) % 2 ^ 64 } }

/-- MAINT_WINDOW_CLOSE (R665): the window has run its beats; what runs completes. -/
def execMaintWindowClose (s : State) : Host.Outcome State Fault Refusal :=
  .next (if s.maint.window.isSome && decide (s.maint.windowEnd ≤ s.trd.tpos) then
    { s with maint := { s.maint with window := none } } else s)

/-! ### Requests -/

/-- MNT_REQ bit 1 (R664). -/
def execMntReqCapTest (s : State) : Host.Outcome State Fault Refusal := .next (s.mntRequest ⟨1, 0, true⟩)

/-- MNT_REQ bit 2, for the port in MNT_REQ.PORT (R664). -/
def execMntReqMarginScan (port : Nat) (s : State) : Host.Outcome State Fault Refusal := .next (s.mntRequest ⟨2, port, true⟩)

/-- MNT_REQ bit 3 (R664). -/
def execMntReqCompact (s : State) : Host.Outcome State Fault Refusal := .next (s.mntRequest ⟨3, 0, true⟩)

/-- MNT_REQ bit 5 (R664). -/
def execMntReqAgeCal (s : State) : Host.Outcome State Fault Refusal := .next (s.mntRequest ⟨5, 0, true⟩)

/-- MNT_REQ bit 6 (R665). -/
def execMntReqBypassTest (s : State) : Host.Outcome State Fault Refusal := .next (s.mntRequest ⟨6, 0, true⟩)

/-- A port is fitted (R6, R433). -/
def State.portFitted (s : State) (p : Nat) : Bool := decide (p < 4) || (decide (p < 8) && s.hasB) || p == 8

/-- The next fitted port in turn. -/
def State.turnPort (s : State) : Nat :=
  ((List.range 9).map fun i => (s.maint.nextPort + i) % 9).find? (fun p => s.portFitted p) |>.getD 0

/-- A scrub pass begins on every die whose stratum memory is usable, and on every quoin that has module memory (R369, R372). -/
def State.scrubStart (s : State) : State :=
  let s := (List.range 4).foldl (fun s d =>
    let x := s.stratum d
    if x.ready && !x.scrubOn then s.setStratum d { x with scrubOn := true, scrubPos := 0 } else s) s
  (List.range 2).foldl (fun s q =>
    let x := s.lpdOf q
    if s.power.pg && x.chanUp != 0 && !x.scrubOn then s.setLpd q { x with scrubOn := true, scrubPos := 0 } else s) s

/-- A request for SCRUB, which runs beside everything (R662–R664). -/
def State.mntScrub (s : State) : State :=
  (if s.maint.running.any fun q => q.act == 0 then s.count pgMNT 0x54 1 else s.mntStart ⟨0, 0, false⟩).scrubStart

/-- A host's request for SNAP_STREAM (R662, R664, R670): it runs until the open snapshot is DONE or ABANDONED, so with none open it ends at
once (DESIGN CHOICE, log entry 124). -/
def State.mntStream (s : State) : State :=
  if s.maint.running.any fun q => q.act == 4 then s.count pgMNT 0x54 1
  else if s.snap.state == .opened then s.snapPreempt
  else s.raise pgMNT 2 4

/-- MNT_PERIODIC_REQUEST (R662): a period has passed; a period of zero requests nothing. -/
def execMntPeriodicRequest (act : Nat) (s : State) : Host.Outcome State Fault Refusal :=
  .next (
    let m := s.maint
    if act == 0 then s.mntScrub
    else if act == 1 && m.capH != 0 then s.mntRequest ⟨1, 0, false⟩
    else if act == 2 && m.marginH != 0 then
      let p := s.turnPort
      State.mntRequest { s with maint := { m with nextPort := (p + 1) % 9 } } ⟨2, p, false⟩
    else if act == 3 then s.mntRequest ⟨3, 0, false⟩
    else if act == 5 && m.agingH != 0 then s.mntRequest ⟨5, 0, false⟩
    else s)

/-- MNT_DEFER_TIMEOUT (R664): a request that may run in the present window has waited on conflicts for MNT_DEFER_MAX. -/
def execMntDeferTimeout (act : Nat) (s : State) : Host.Outcome State Fault Refusal :=
  .next (
    match s.maint.waiting.find? fun q => q.act == act with
    | some q =>
      if s.mntWindow act && s.mntConflict q then
        State.mntRefuse { s with maint := { s.maint with waiting := s.maint.waiting.erase q } } act 0x0901
      else s
    | none => s)

/-! ### What an activity leaves (R588, R660) -/

/-- E_u of R588 in mJ, from the capacitance in µF and the ESR in 0.1 mΩ; a fraction of a mJ is dropped. -/
def usableEnergy (c esr : Nat) : Nat :=
  let a := 1095610 + 18 * esr
  c * (10956100 * 143641 - a * a) / (2000 * 1095610000)

/-- The result of a bank test (R588, R579). -/
def State.bankResult (s : State) (d : Measured) : State :=
  let eu := min 0xFFFF (usableEnergy d.capUf d.esr)
  let s := { s with sag := { s.sag with cap := min 0xFFFF d.capUf, esr := min 0xFFFF d.esr, euMj := eu } }
  let s := s.wearPut 7 (eu : Int)
  if decide (eu < 600) && s.jobLoaded then s.raise pgPWR 3 eu else s

/-- The indicators that an activity measures. -/
def State.wearOf (s : State) (act port : Nat) (d : Measured) : State :=
  let mine (i : Nat) : Bool :=
    if act == 5 then decide (i < 6) else if act == 3 then i == 6 else if act == 2 then i == 8 + port else false
  d.values.foldl (fun s iv => if mine iv.1 then s.wearPut iv.1 iv.2 else s) s

/-- The ring switch closed and reopened, or opened and closed (R662): two changes, and it stands as before. -/
def State.bypassTest (s : State) : State :=
  ((s.count pgTRD 4 2).raise pgTRD 3 1).raise pgTRD 3 0

/-- MAINT_ACTIVITY_END (R664): the activity's result, DONE, and the waiting requests. SNAP_STREAM ends with its snapshot; COMPACT
does not run while SAG is not ARMED (R666); SCRUB ends when the pass of every die and quoin is over. -/
def execMaintActivityEnd (act : Nat) (d : Measured) (s : State) : Host.Outcome State Fault Refusal :=
  .next (
    match s.maint.running.find? fun q => q.act == act with
    | none => s
    | some q =>
      if (act == 4 && s.snap.state == .opened) || (act == 3 && s.sag.state != .armed)
          || (act == 0 && ((s.strat.any fun kv => kv.2.scrubOn) || s.lpd.any fun kv => kv.2.scrubOn)) then s
      else
        let s := { s with maint := { s.maint with running := s.maint.running.erase q } }
        let s := if act == 1 then s.bankResult d else s.wearOf act q.port d
        let s := if act == 2 then s.scanPort q.port true else s
        let s := if act == 6 then s.bypassTest else s
        let s := if act == 0 then s else s.raise pgMNT 2 act
        s.mntExamine)

/-! ### Scrubs (R369–R372) -/

/-- Lines of a die's stratum memory. -/
def stratumLines : Nat := stratumSize / 64

/-- A line that an uncorrectable error left reads with UNCORR, and what its bytes hold is open. -/
def State.spoil (s : State) (line : Nat) : State :=
  let (i, s) := s.draw
  let s := { s with mem := s.mem.setRun 0 (64 * line) ((List.range 64).map (Config.badByte i)) }
  if s.bad.contains line then s else { s with bad := s.bad ++ [line] }

/-- STRATUM_SCRUB (R369, R370): the line at the scrub position. -/
def execStratumScrub (die : Nat) (r : ScrubResult) (s : State) : Host.Outcome State Fault Refusal :=
  .next (
    let x := s.stratum die
    if !x.scrubOn || !x.ready || s.paused then s else
    let line := die * stratumLines + x.scrubPos
    let pos := x.scrubPos + 1
    let s := s.setStratum die { x with scrubPos := pos % stratumLines, scrubOn := decide (pos < stratumLines) }
    match r with
    | .clean => s
    | .corrected _ => State.count { s with soft := s.soft.filter fun w => w / 8 != line } (pgSTR die) 0x4C 1
    | .uncorrectable =>
      let s := s.spoil line
      let y := s.stratum die
      let s := if y.failAddr.isSome then s else s.setStratum die { y with failAddr := some (64 * line) }
      (s.count (pgSTR die) 0x50 1).raise (pgSTR die) 0 (64 * line))

/-- Lines of a quoin's half of module memory (R360). -/
def lpdLines : Nat := 0x004000000000 / 64

/-- LPD_SCRUB (R372): the line of the quoin's channels at the scrub position; nothing is written, and what the read finds counts as for a
demand read (R362). -/
def execLpdScrub (q : Nat) (r : ScrubResult) (s : State) : Host.Outcome State Fault Refusal :=
  .next (
    let x := s.lpdOf q
    if s.paused || !s.power.pg || !x.scrubOn then s else
    let s := s.setLpd q { x with scrubPos := (x.scrubPos + 1) % lpdLines, scrubOn := decide (x.scrubPos + 1 < lpdLines) }
    match r with
    | .clean => s
    | .corrected _ => s.count (pgLPD q) 0x48 1
    | .uncorrectable => (s.count (pgLPD q) 0x4C 1).raise (pgLPD q) 0 q)

/-- STR_FAIL_ADDR.VALID cleared (R369, R389). -/
def execStrFailValidClear (die : Nat) (s : State) : Host.Outcome State Fault Refusal :=
  .next (s.setStratum die { s.stratum die with failAddr := none })

/-! ### Channels, links and the management watchdog (R29, R31, R363) -/

/-- The module reports itself failed (R29, R363, R545). -/
def State.selfFailed (s : State) (err : W16) : State := s.sendStatus 4 err 0

/-- The packages' temperature readout is renewed; its values the spec leaves open (R361, R390, log entry 113). -/
def State.readTemp (s : State) (q : Nat) : State :=
  let (i, s) := s.draw
  s.setLpd q { s.lpdOf q with temp := Config.lpdTemp q i }

/-- LPD_RETRAIN (R361, R363): the temperature readout comes with it, and three failures in a row stop the job. -/
def execLpdRetrain (q chan : Nat) (ok : Bool) (s : State) : Host.Outcome State Fault Refusal :=
  .next (
    if !s.power.pg || s.paused then s else
    let s := s.readTemp q
    let x := s.lpdOf q
    if ok then s.setLpd q { x with failRun := x.failRun.set 0 chan 0 }
    else
      let n := x.failRun.get 0 chan + 1
      let s := s.setLpd q { x with failRun := x.failRun.set 0 chan n }
      let s := (s.count (pgLPD q) 0x54 1).raise (pgLPD q) 2 chan
      if n == 3 then (s.stopUnit 0x030B 0).selfFailed 0x030B else s)

/-- MORTAR_LINK_DOWN (R29): three retraining attempts in a row of one of the eight links (R25) have failed. Units that failed their check on the
way were replayed, and their count rises by a free number. No traffic is rerouted; a link that is down changes no other command, since what
becomes of the traffic that its routes carry is not stated (DESIGN CHOICE, log entry 132). -/
def execMortarLinkDown (link : Nat) (s : State) : Host.Outcome State Fault Refusal :=
  .next (
    if !s.power.pg || decide (8 ≤ link) then s else
    let m := s.mortars.get Mortar.reset link
    let (i, s) := s.draw
    let s := { s with mortars := s.mortars.set Mortar.reset link { m with down := true, failRun := 3,
                                                                          replays := m.replays + Config.mortarReplays i } }
    (s.stopUnit 0x0303 0).selfFailed 0x0303)

/-- MGMT_WATCHDOG_MISS (R31): the standby controller on Q1 takes over. -/
def execMgmtWatchdogMiss (s : State) : Host.Outcome State Fault Refusal := .next { s with ctlOnQ1 := true }

end Sys2Proof.Machine
end

