-- ==== Sys2Proof/Machine/Beat.lean ====
section
/-!
DEFINITION. The beat edge (R405, R409–R411, R523, R525, R530, R533–R541, R565–R568, R597, R659): the position, the start or resume
of a job, the votes, the event table, and the frame that a head sends.
-/
namespace Sys2Proof.Machine

/-! ### Occurrences (R534, R536, R537) -/

def actCOMMIT : Nat := 1
def actSNAP_OPEN : Nat := 2
def actRELEASE : Nat := 3
def actKNOT_ADD : Nat := 4
def actSAMPLE : Nat := 5
def actMAINT_OPEN : Nat := 6

/-- Position `a` is `b` or before it. -/
def posLe (a b : Nat) : Bool := decide ((b + 2 ^ 64 - a % 2 ^ 64) % 2 ^ 64 < 2 ^ 63)

/-- A valid entry has fallen due. -/
def State.due (s : State) (e : EvEntry) : Bool := e.valid && posLe e.pos s.jobPos

/-- The first occurrence of a periodic entry at or after `p`. -/
def EvEntry.firstFrom (e : EvEntry) (p : Nat) : Nat :=
  if posLe p e.pos then e.pos else e.pos + roundUp ((p + 2 ^ 64 - e.pos) % 2 ^ 64) (max 1 e.period)

def State.putEntry (s : State) (i : Nat) (e : EvEntry) : State :=
  { s with evt := { s.evt with entries := s.evt.entries.set EvEntry.reset i e } }

/-- An entry that has run, or has been skipped, is cleared or advanced; one that ran late goes on after the present position. -/
def State.passEntry (s : State) (i : Nat) (e : EvEntry) : State :=
  if e.period == 0 then s.putEntry i EvEntry.reset
  else if e.pos == s.jobPos then s.putEntry i { e with pos := (e.pos + e.period) % 2 ^ 64 }
  else s.putEntry i { e with pos := e.firstFrom (s.jobPos + 1) % 2 ^ 64 }

/-- The indexes of the due entries of an action, ascending. -/
def State.dueOf (s : State) (act : Nat) : List (Nat × EvEntry) :=
  s.evt.entries.filter fun ie => ie.2.action == act && s.due ie.2

/-- Runs an entry that has fallen due: its effect, then its clearing or advance, and LATE where its position has passed, or in any case at the
end of a sag, `all` (R537, R597). -/
def State.runEntry (all : Bool) (s : State) (ie : Nat × EvEntry) (f : State → State) : State :=
  let late := all || ie.2.pos != s.jobPos
  let s := (f s).passEntry ie.1 ie.2
  if late then s.markLate ie.1 else s

/-! ### The actions (R535) -/

/-- SAMPLE: one counter snapshot of every page, and the id (R535, R635). -/
def State.samplePages (s : State) (id : W64) : State :=
  let s := s.mapPages fun _ h => h.takeSnap
  { s with trd := { s.trd with sample := id.setWidth 32 } }

/-- What a COMMIT occurrence came to: applied, deferred, or not decided yet. -/
inductive CommitFate where
  | applied | deferred | undecided
deriving DecidableEq, Repr

def CommitFate.ofDecision (commit : Bool) : CommitFate := if commit then .applied else .deferred

/-- Of two occurrences at one edge, a deferred one decides for the SNAP_OPENs, then one that is not decided. -/
def CommitFate.join : CommitFate → CommitFate → CommitFate
  | .deferred, _ | _, .deferred => .deferred
  | .undecided, _ | _, .undecided => .undecided
  | _, _ => .applied

/-- A COMMIT that falls due: the held decision, or the worker's own vote when SOLO; without a decision the phase is LATE. An occurrence for
which no vote is open was voted NOT_READY (R539). -/
def State.runCommit (s : State) (e : EvEntry) : State × CommitFate :=
  if s.job.mapping.isNone then (s, .applied) else
  let passed := e.pos != s.jobPos
  match s.gen.vote with
  | some v =>
    if v.pos != e.pos then (s.applyDefer, .deferred)
    else if s.soloJob then (s.decideVote v.ready passed, .ofDecision v.ready)
    else match s.trd.heldDecision with
      | some d =>
        if d.1 == v.pos then (s.decideVote d.2 passed, .ofDecision d.2) else ({ s with gen := { s.gen with phase := .late } }, .undecided)
      | none => ({ s with gen := { s.gen with phase := .late } }, .undecided)
  | none => (s.applyDefer, .deferred)

/-- SNAP_OPEN where it runs, with the arbiter's part (R535, R664). -/
def State.runSnap (s : State) (id op : W64) (was : List Nat) : State :=
  let t := s.openSnap id op was
  if t.snap.state == .opened && s.snap.state != .opened then t.snapPreempt else t

/-- The code of the record that each carry of a SNAP_OPEN writes (R567). -/
def recCarry : Nat := 0x0150

/-- A SNAP_OPEN whose commit was deferred is carried to the next COMMIT occurrence (R567). -/
def State.carrySnap (s : State) (id op : W64) : State :=
  let s := { s with evt := { s.evt with carried := s.evt.carried ++ [(id, op)] } }
  let s := s.record pgSNP recCarry 0 id.toNat none
  if s.snap.state == .opened then s else { s with snap := { s.snap with state := .idle } }

/-- A SNAP_OPEN whose commit is not decided yet waits for the decision (R567). -/
def State.holdSnap (s : State) (entry : Option Nat) (id op : W64) : State :=
  { s with evt := { s.evt with undecided := s.evt.undecided ++ [(entry, id, op)] } }

/-- A SNAP_OPEN after the COMMIT at its position. -/
def State.snapAfter (s : State) (fate : CommitFate) (entry : Option Nat) (id op : W64) (was : List Nat) : State :=
  match fate with
  | .applied => s.runSnap id op was
  | .deferred => s.carrySnap id op
  | .undecided => s.holdSnap entry id op

/-- A decision that comes after P: the commit is applied or deferred at once, and so are the SNAP_OPENs of its position opened, LATE, or
carried, as on every other worker (R411, R537, R567). -/
def State.lateDecision (s : State) (commit : Bool) : State :=
  let was := (List.range 3).filter fun j => s.slotState j == 1
  let l := s.evt.undecided
  let s := State.decideLate { s with evt := { s.evt with undecided := [] } } commit
  l.foldl (fun s w =>
    let s := s.snapAfter (.ofDecision commit) none w.2.1 w.2.2 was
    match w.1, commit with | some i, true => s.markLate i | _, _ => s) s

/-- A KNOT_ADD entry (R340, R535). -/
def State.runKnotAdd (s : State) (k v : W64) : State := s.unitAdd (k.toNat % 8192) v

/-- Entries that run while a job is LOADED and started: COMMIT, SNAP_OPEN, RELEASE, KNOT_ADD. -/
def State.jobEntries (all : Bool) (s : State) : State :=
  let was := (List.range 3).filter fun j => s.slotState j == 1
  let commits := s.dueOf actCOMMIT
  let (s, fate) := commits.foldl (fun (st : State × CommitFate) ie =>
    let (t, d) := st.1.runCommit ie.2
    (t.runEntry all ie id, st.2.join d)) (s, .applied)
  -- a carried open is tried again at a COMMIT occurrence
  let s :=
    if commits.isEmpty then s
    else
      let l := s.evt.carried
      let s := { s with evt := { s.evt with carried := [] } }
      l.foldl (fun s io => s.snapAfter fate none io.1 io.2 was) s
  let s := (s.dueOf actSNAP_OPEN).foldl (fun s ie => s.runEntry all ie fun s =>
    s.snapAfter (if commits.any fun c => c.2.pos == ie.2.pos then fate else .applied) (some ie.1) ie.2.arg0 ie.2.arg1 was) s
  -- a release that is held sets LATE where it runs (R695), not where it falls due
  let s := (s.dueOf actRELEASE).foldl (fun s ie =>
    let k := ie.2.arg0.toNat % 8192
    let n := ie.2.arg1.toNat % 2 ^ 32
    if (s.slotIn 3).isSome then s.runEntry all ie fun s => s.runRelease k n
    else State.passEntry { s with gen := { s.gen with held := s.gen.held ++ [(⟨ie.1, k, n⟩ : HeldRelease)] } } ie.1 ie.2) s
  (s.dueOf actKNOT_ADD).foldl (fun s ie => s.runEntry all ie fun s => s.runKnotAdd ie.2.arg0 ie.2.arg1) s

/-- While the loaded job is STOPPED these entries are skipped, and a SNAP_OPEN's snapshot is abandoned (R536). -/
def State.skipEntries (s : State) : State :=
  let commits := s.dueOf actCOMMIT
  let s := commits.foldl (fun s ie => s.passEntry ie.1 ie.2) s
  let s :=
    if commits.isEmpty then s
    else s.evt.carried.foldl (fun s io => s.skipSnap io.1 io.2) { s with evt := { s.evt with carried := [] } }
  let s := s.evt.undecided.foldl (fun s w => s.skipSnap w.2.1 w.2.2) { s with evt := { s.evt with undecided := [] } }
  let s := (s.dueOf actSNAP_OPEN).foldl (fun s ie => (s.skipSnap ie.2.arg0 ie.2.arg1).passEntry ie.1 ie.2) s
  ((s.dueOf actRELEASE) ++ (s.dueOf actKNOT_ADD)).foldl (fun s ie => s.passEntry ie.1 ie.2) s

/-- SAMPLE and MAINT_OPEN entries. -/
def State.pageEntries (all : Bool) (s : State) : State :=
  let s := (s.dueOf actSAMPLE).foldl (fun s ie => s.runEntry all ie fun s => s.samplePages ie.2.arg0) s
  (s.dueOf actMAINT_OPEN).foldl (fun s ie => s.runEntry all ie fun s =>
    s.openWindow (ie.2.arg0.toNat % 2 ^ 64) (ie.2.arg1.toNat % 128)) s

/-- The job has started: its positions run. -/
def State.started (s : State) : Bool := s.trd.firstEdge.isSome

/-- The due entries run in ascending action code, then index (R536). -/
def State.runEntries (all : Bool) (s : State) : State :=
  let s :=
    if s.job.state == .loaded && s.started then s.jobEntries all
    else if s.job.state == .stopped then s.skipEntries
    else s
  s.pageEntries all

/-- Entries that fall due while the module is paused by a sag: a SNAP_OPEN is abandoned and a MAINT_OPEN counts in LATE; the others
stay due until the resume (R597). -/
def State.pausedEntries (s : State) : State :=
  let s := (s.dueOf actSNAP_OPEN).foldl (fun s ie => (s.pausedSnap ie.2.arg0 ie.2.arg1).passEntry ie.1 ie.2) s
  (s.dueOf actMAINT_OPEN).foldl (fun s ie => ((s.passEntry ie.1 ie.2).count pgEVT 0x68 1).count pgTRD 2 1) s

/-! ### Votes and the start of a job (R409, R537, R539, R547, R550, R568) -/

/-- The vote of an occurrence is sampled: NOT_READY while the module is paused (R597). -/
def State.sampleVote (s : State) (pos : Nat) (ready : Bool) : State :=
  let s := { s with gen := { s.gen with vote := some ⟨pos, s.commits, ready⟩, lastVote := ready,
                                        phase := if s.gen.applied.isSome then s.gen.phase else .voted } }
  if ready then s else s.count pgTRD 6 1

/-- The NOT_READY vote of a STOPPED job (R539). Its COMMIT will be skipped (R536), so no vote stays open. -/
def State.stoppedVote (s : State) : State :=
  State.count { s with gen := { s.gen with lastVote := false } } pgTRD 6 1

/-- Votes whose sampling position is the present one. -/
def State.sampleVotes (s : State) : State :=
  if !(s.job.state == .loaded || s.job.state == .stopped) || !s.started || s.job.mapping.isNone then s else
  (s.evt.entries.filter fun ie => ie.2.valid && ie.2.action == actCOMMIT
      && ie.2.pos == (s.jobPos + s.mapLead) % 2 ^ 64).foldl
    (fun s ie => if s.job.state == .stopped then s.stoppedVote else s.sampleVote ie.2.pos (s.voteReady && !s.paused)) s

/-- A job starts or resumes at job position `p`: periodic entries go to their first occurrence at or after it, one-shot entries
before it do not run, and a commit whose vote lies before it is voted NOT_READY. -/
def State.beginJob (s : State) (p : Nat) : State :=
  let st := if s.job.state == .restoreWait then JobState.loaded else s.job.state
  let s := { s with job := { s.job with state := st }, trd := { s.trd with firstEdge := some p, resume := none } }
  let s := s.evt.entries.foldl (fun s ie =>
    let e := ie.2
    if !e.valid || posLe p e.pos then s
    else if e.period == 0 then s.putEntry ie.1 EvEntry.reset
    else s.putEntry ie.1 { e with pos := e.firstFrom p % 2 ^ 64 }) s
  (s.evt.entries.filter fun ie => ie.2.valid && ie.2.action == actCOMMIT
      && decide ((ie.2.pos + 2 ^ 64 - p % 2 ^ 64) % 2 ^ 64 < s.mapLead)).foldl
    (fun s ie => s.sampleVote ie.2.pos false) s

/-- A resume whose position has come (R547, R550, R568). -/
def State.takeResume (s : State) : State :=
  match s.trd.resume with
  | none => s
  | some r =>
    if !(posLe r.at_ s.trd.tpos) then s else
    let base := (r.at_ + 2 ^ 64 - r.jobPos % 2 ^ 64) % 2 ^ 64
    let s := { s with trd := { s.trd with jobBase := base } }
    if s.job.state == .loaded || s.job.state == .restoreWait then s.beginJob r.jobPos
    else { s with trd := { s.trd with resume := none } }

/-! ### Heads (R514, R515, R520, R523, R539, R540) -/

/-- The module heads the trunk, and heads a ring. -/
def State.headsTrunk (s : State) : Bool := match s.mgr.plan with | some p => p.top && p.trunk | none => false
def State.headsRing (s : State) : Bool := match s.mgr.plan with | some p => !(p.top && p.trunk) | none => false

def opNOP : Nat := 0
def opVOTE : Nat := 1
def opTALLY : Nat := 2
def opCOMMIT : Nat := 3
def opDEFER : Nat := 4
def opSTOP : Nat := 5
def opBYPASS : Nat := 6
def opUNBYPASS : Nat := 7

/-- The head takes up a commit whose V is the present position. -/
def State.headTakes (s : State) : State :=
  match s.mgr.plan with
  | none => s
  | some pl =>
    match s.evt.entries.find? fun ie => ie.2.valid && ie.2.action == actCOMMIT
        && ie.2.pos == (s.jobPos + pl.voteLead) % 2 ^ 64 with
    | some ie => { s with trd := { s.trd with headVote := some ⟨ie.2.pos, none, none, none, none, none, false⟩ } }
    | none => s

/-- A frame that has not returned within its round trip and one beat more counts as NOT_READY (R540). -/
def State.headWaits (s : State) (h : HeadVote) : HeadVote :=
  let overdue (sent : Option Nat) (trip : Nat) : Bool := match sent with | some t => decide (t + trip + 1 < s.trd.tpos) | none => false
  let h := if h.ringReady.isNone && overdue h.voteSent s.trd.dR then { h with ringReady := some false } else h
  if h.trunkReady.isNone && overdue h.tallySent s.trd.dT then { h with trunkReady := some false } else h

/-- A single ring's head decides on its ring's result, the trunk's head on the TALLY (R539). -/
def State.headDecides (s : State) (h : HeadVote) : HeadVote :=
  match s.mgr.plan with
  | none => h
  | some pl =>
    if h.decision.isSome then h
    else if s.headsTrunk then { h with decision := h.trunkReady }
    else if pl.top then { h with decision := h.ringReady } else h

/-- The queued command that goes first: STOP before BYPASS and UNBYPASS, each kind in the order in which it was queued (R523); the queue that
remains after one frame of it. -/
def nextCmd (l : List RingCmd) : Option (RingCmd × List RingCmd) :=
  match (l.find? fun c => c.op == opSTOP).or l.head? with
  | none => none
  | some c =>
    let same (k : RingCmd) : Bool := k.op == c.op && k.arg == c.arg
    some (c, if c.left ≤ 1 then l.filter fun k => !(same k)
             else l.map fun (k : RingCmd) => if same k then { k with left := k.left - 1 } else k)

/-- The command of the frame that the head sends at this edge, by R523's order, and what remains to be sent. -/
def State.headCommand (s : State) : State × Nat × Nat :=
  let trunk := s.headsTrunk
  let lead := match s.mgr.plan with | some pl => pl.voteLead | none => 0
  let hv := s.trd.headVote.map fun h => s.headDecides (s.headWaits h)
  let s := { s with trd := { s.trd with headVote := hv } }
  let put (s : State) (h : HeadVote) : State := { s with trd := { s.trd with headVote := some h } }
  let arg (h : HeadVote) : Nat := h.pos % 4096
  let dec (h : HeadVote) (d : Bool) : Nat × Nat := (if d then opCOMMIT else opDEFER, arg h)
  let rest (s : State) : State × Nat × Nat :=
    match nextCmd s.trd.cmds with
    | some (c, left) => ({ s with trd := { s.trd with cmds := left } }, c.op, c.arg)
    | none =>
      match hv with
      | some h =>
        (match h.decision with
         | some d => if h.firstSent && posLe s.jobPos (h.pos + lead) then let r := dec h d; (s, r.1, r.2) else (s, opNOP, 0)
         | none => (s, opNOP, 0))
      | none => (s, opNOP, 0)
  match hv with
  | none => rest s
  | some h =>
    if !trunk && h.voteSent.isNone && h.decision.isNone && s.jobPos == (h.pos + 1 + 2 ^ 64 - lead) % 2 ^ 64 then
      (put s { h with voteSent := some s.trd.tpos }, opVOTE, arg h)
    else if trunk && h.tallySent.isNone && s.jobPos == (h.pos + 2 + s.trd.dR + 2 ^ 64 - lead) % 2 ^ 64 then
      (put s { h with tallySent := some s.trd.tpos }, opTALLY, arg h)
    else match h.decision with
      | some d => if h.firstSent then rest s else let r := dec h d; (put s { h with firstSent := true }, r.1, r.2)
      | none => rest s

/-- TF_CRC (R519), over characters 1 to 12. -/
def crc16Bit (c : W16) : W16 := if c.getLsbD 15 then (c <<< 1) ^^^ 0x1021 else c <<< 1
def crc16Byte (c : W16) (b : Byte) : W16 :=
  let f := crc16Bit
  f (f (f (f (f (f (f (f (c ^^^ (b.setWidth 16 <<< 8)))))))))
def crc16 (bs : Bytes) : W16 := bs.foldl crc16Byte 0xFFFF

/-- Characters 1 to 12 of a frame (R518). -/
def TFrame.chars (f : TFrame) : Bytes := beBytes 8 f.pos.toNat ++ beBytes 2 f.flags.toNat ++ beBytes 2 (f.op * 4096 + f.arg % 4096)
def TFrame.good (f : TFrame) : Bool := crc16 f.chars == f.crc
def TFrame.seal (f : TFrame) : TFrame := { f with crc := crc16 f.chars }

/-- The head's frame, which announces the next beat (R514, R518, R520, R527). -/
def State.headSends (s : State) : State :=
  if s.mgr.plan.isNone then s else
  let (s, op, arg) := s.headTakes.headCommand
  let flags : Nat := b2n (op == opVOTE || op == opTALLY) + 4 * b2n (!s.trd.trained)
  let f : TFrame := ⟨s.headsTrunk, BitVec.ofNat 64 (s.trd.tpos + 1), BitVec.ofNat 16 flags, op, arg, 0⟩
  { s with trd := { s.trd with passed := some f.seal } }

/-! ### The edge (R525, R530, R536, R659) -/

/-- Beats of a module on a ring come with frames (R525). -/
def State.onRing (s : State) : Bool := s.trd.link == .framed || s.trd.link == .synced

/-- A beat without a good frame since the last edge (R524, R525). -/
def State.missFrame (s : State) : State :=
  if !s.onRing then { s with trd := { s.trd with frame := none } }
  else if s.trd.frame.isSome then { s with trd := { s.trd with frame := none, missedRun := 0 } }
  else State.count { s with trd := { s.trd with missedRun := s.trd.missedRun + 1 } } pgTRD 1 1

/-- BEAT_EDGE (R536). The ring interface, which runs, has refreshed its switch's hold. -/
def execBeatEdge (s : State) : Host.Outcome State Fault Refusal :=
  .next (
    if !s.power.pg then s else
    let s := s.missFrame
    let s := { s with trd := { s.trd with tpos := (s.trd.tpos + 1) % 2 ^ 64, holdLost := false } }
    let s := s.takeResume
    let s := s.sampleVotes
    let s := if s.paused then s.pausedEntries else s.runEntries false
    let s := s.headSends
    if s.trd.tpos % 65536 == 0 then
      s.record pgTRD 0x0120 0 s.trd.tpos (some (leBytes 8 s.trd.tpos ++ leBytes 8 s.jobPos))
    else s)

end Sys2Proof.Machine
end

