-- ==== Sys2Proof/Machine/Eth.lean ====
section
/-!
DEFINITION. The Ethernet ports (R433–R447, R466): received frames, links, and the rotation over a plane's ports.
-/
namespace Sys2Proof.Machine

/-- Lanes that a mode trains (R434): 800, 400 and 200 Gb/s. -/
def modeLanes (mode : Nat) : Nat := if mode == 1 then 8 else if mode == 2 then 4 else if mode == 3 then 2 else 0

/-- The connector, JA or JB, and its lane that carry lane `k` of data port `n` (R680); lane l is at column l + 1. -/
def connectorLane (n k : Nat) : Bool × Nat := (decide (4 ≤ n), 8 * (n % 4) + k)

/-- The frame's tags are ones that the port takes (R441, R466). -/
def Port.tagsOk (p : Port) (vids : List Nat) : Bool :=
  match vids with
  | [] => !p.tagEn
  | [v] => v == p.vid
  | _ => false

/-- The frame's IP destination is the port's address of that protocol, which a zero disables (R439). -/
def State.ipOk (s : State) (f : Frame) : Bool :=
  s.speaks f.port f.ipv6 && (f.port == 8 && !s.trust.recovery
    || (if f.ipv6 then f.dstIp == s.portIp6 f.port else f.dstIp.toNat % 2 ^ 32 == (s.port f.port).ipv4.toNat))

/-- What becomes of a frame (R436, R437, R441). -/
inductive FrameFate where
  | accepted | answered | resolved | pause | format | address
deriving DecidableEq, Repr

/-- The frame's destination MAC is the port's own or the broadcast address (R441), or for a neighbour solicitation the group of the address
that it asks for. -/
def State.macOk (s : State) (f : Frame) : Bool :=
  f.dst == s.portMac f.port || f.dst == 2 ^ 48 - 1
    || (f.use_ == .neighbourSolicitation && f.dst == solicited (s.portIp6 f.port))

/-- The UDP port on which a port takes Miornal packets: the management port has no register for it (R441, log entry 117). -/
def State.udpPortOf (s : State) (p : Nat) : Nat := if p == 8 then 0xB038 else (s.port p).udpPort.toNat

/-- The conditions of R441, in its order; on the management port a packet of another kind than CONTROL fails last (R436), but for the push
that RECOVERY_LISTEN takes (R606). -/
def State.frameFate (s : State) (f : Frame) : FrameFate :=
  let p := s.port f.port
  if !f.fcsOk || f.length < 64 || 9216 < f.length then .format
  else if f.use_ == .pause then .pause
  else if !(p.tagsOk f.vids) then .format
  else if !(s.macOk f) then .address
  else if f.use_ == .arpRequest || f.use_ == .neighbourSolicitation then (if s.ipOk f then .answered else .address)
  else if f.use_ == .arpReply || f.use_ == .neighbourAdvertisement then .resolved
  else if f.use_ == .other || f.ipOptions || f.fragmented then .format
  else if !(s.ipOk f) then .address
  else if f.use_ == .echoRequest then .answered
  else if f.use_ != .udp then .format
  else if !(f.csumOk || (f.csumZero && !f.ipv6)) || f.dstPort != s.udpPortOf f.port then .format
  else if f.port == 8 && f.kind != 0 && !s.trust.recovery then .format
  else .accepted

/-- A gateway's answer to an ARP request or a neighbour solicitation: its MAC address (R439). -/
def State.learnMac (s : State) (f : Frame) : State :=
  let x := s.port f.port
  if f.ipv6 then (if f.srcIp == x.gw6 then s.setPort f.port { x with gwMac6 := some f.srcMac } else s)
  else if f.srcIp.toNat % 2 ^ 32 == x.gw4.toNat then s.setPort f.port { x with gwMac4 := some f.srcMac } else s

/-- Uncorrectable codewords since the previous frame (R466): counted; 16 within 1 ms raise FEC_DEGRADED. -/
def State.fecUncorr (s : State) (p n : Nat) : State :=
  if n == 0 then s else
  let now := s.stamp 4
  let l := ((s.port p).uncorrAt.filter fun t => decide (now < t + 2250000)) ++ List.replicate (min n 16) now
  let s := s.count (pgETH p) 5 n
  if 16 ≤ l.length then (s.setPort p { s.port p with uncorrAt := [] }).raise (pgETH p) 2 l.length
  else s.setPort p { s.port p with uncorrAt := l }

/-- A frame that is discarded for its format: RX_DROP_FORMAT, which for the management port no page shows (R436, R441). -/
def State.dropFormat (s : State) (p : Nat) : State :=
  if p == 8 then s.setPort 8 { s.port 8 with drops := (s.port 8).drops + 1 } else s.count (pgETH p) 7 1

/-- Codewords that FEC corrected and could not correct since the previous frame, and the frame itself, are counted (R466). -/
def State.countFrame (s : State) (fr : Frame) : State :=
  let e := pgETH fr.port
  if fr.port == 8 then s else
  let s := (((s.count e 4 fr.corrected).fecUncorr fr.port fr.uncorrected).count e 1 1).count e 3 fr.length
  if fr.fcsOk then s else s.count e 6 1

/-- The port works: the module runs, or listens for an image, for which it uses port 0 and the management port (R606). -/
def State.portRuns (s : State) (p : Nat) : Bool := s.power.pg || (s.trust.recovery && (p == 0 || p == 8))

/-- The port takes frames: it is fitted and its link is up; the management port always does. -/
def State.portHears (s : State) (p : Nat) : Bool :=
  s.portRuns p && (p == 8 || (decide (p < 8) && s.pagePresent (pgETH p) && (s.port p).linkUp))

/-- The answer to a frame, by what the frame is. -/
def FrameUse.answer (u : FrameUse) : PlainUse :=
  if u == .arpRequest then .arpReply else if u == .neighbourSolicitation then .neighbourAdvertisement else .echoReply

/-- ARP requests, neighbour solicitations and echo requests are answered to the sender, at most 1,000 a second on each port (R441). -/
def State.answerFrame (s : State) (fr : Frame) : State :=
  let x := s.port fr.port
  if x.answered < 1000 then
    (s.setPort fr.port { x with answered := x.answered + 1 }).sendPlainFrame fr.use_.answer fr.port fr.srcMac fr.ipv6 fr.srcIp fr.length
  else s

/-- A received frame (R436, R437, R441, R443), and what became of it. -/
def State.takeFrame (s : State) (fr : Frame) : State × FrameFate :=
  let e := pgETH fr.port
  let s := s.countFrame fr
  let fate := s.frameFate fr
  (match fate with
    | .accepted => if fr.ce && fr.port != 8 then s.count e 9 1 else s
    | .answered => s.answerFrame fr
    | .resolved => s.learnMac fr
    | .pause => if fr.port == 8 then s else s.count e 11 1
    | .format => s.dropFormat fr.port
    | .address => if fr.port == 8 then s else s.count e 8 1, fate)

/-! ### A sent frame as bytes (R440, R442, R472) -/

/-- The 16-bit one's-complement sum of bytes, as IPv4 and UDP take it. -/
def onesSum (bs : Bytes) : Nat :=
  let n := (List.range ((bs.length + 1) / 2)).foldl (fun n i => n + beNat ((bs ++ [0]).drop (2 * i) |>.take 2)) 0
  (n % 65536 + n / 65536) % 65536 + (n % 65536 + n / 65536) / 65536

/-- The IPv4 header: no options, DSCP zero with ECT(0), DF, TTL 64; or the IPv6 header: no extension headers, hop limit 64 (R440). -/
def FrameHead.ip (h : FrameHead) (len : Nat) : Bytes :=
  if h.ipv6 then beBytes 4 (6 * 2 ^ 28 + 2 * 2 ^ 20) ++ beBytes 2 len ++ [17, 64] ++ beBytes 16 h.srcIp.toNat ++ beBytes 16 h.dstIp.toNat
  else
    let head (sum : Nat) : Bytes :=
      [0x45, 0x02] ++ beBytes 2 (20 + len) ++ beBytes 2 0 ++ beBytes 2 0x4000 ++ [64, 17] ++ beBytes 2 sum
        ++ beBytes 4 (h.srcIp.toNat % 2 ^ 32) ++ beBytes 4 (h.dstIp.toNat % 2 ^ 32)
    head (0xFFFF - onesSum (head 0))

/-- The UDP header, its checksum always computed (R440). -/
def FrameHead.udp (h : FrameHead) (payload : Bytes) : Bytes :=
  let len := 8 + payload.length
  let w := if h.ipv6 then 16 else 4
  let pseudo := beBytes w (h.srcIp.toNat % 2 ^ (8 * w)) ++ beBytes w (h.dstIp.toNat % 2 ^ (8 * w)) ++ beBytes 4 len ++ beBytes 4 17
  let head (sum : Nat) : Bytes := beBytes 2 h.srcPort ++ beBytes 2 h.dstPort ++ beBytes 2 len ++ beBytes 2 sum
  let sum := 0xFFFF - onesSum (pseudo ++ head 0 ++ payload)
  head (if sum == 0 then 0xFFFF else sum)

/-- The frame without its FCS: Ethernet II, one 802.1Q tag where the port sends one, IP, UDP, all in network byte order (R440, R442); while the
gateway is not resolved the destination reads 0. -/
def FrameHead.bytes (h : FrameHead) (payload : Bytes) : Bytes :=
  let tag := match h.tag with | some (pcp, vid) => beBytes 2 0x8100 ++ beBytes 2 (pcp * 2 ^ 13 + vid) | none => []
  let udp := h.udp payload ++ payload
  beBytes 6 (h.dstMac.getD 0) ++ beBytes 6 h.srcMac ++ tag ++ beBytes 2 (if h.ipv6 then 0x86DD else 0x0800) ++ h.ip udp.length ++ udp

/-- The Miornal packet as sent (R472–R475). -/
def Sent.packet (p : Sent) : Bytes :=
  mrnHeader 1 p.flags p.typ p.session p.epoch p.seq p.ack p.sack p.cmd p.payload.length p.ce 0 ++ p.payload ++ p.tag

/-- The frame that left, if one did. -/
def Sent.wire (p : Sent) : Option Bytes := p.frame.map fun h => h.bytes p.packet

/-- PORT_DOWN (R446): the port leaves the rotation. -/
def execPortDown (port : Nat) (s : State) : Host.Outcome State Fault Refusal :=
  .next (
    let x := s.port port
    if !(s.portRuns port) || !(s.pagePresent (pgETH port)) || 8 ≤ port || !x.linkUp then s else
    let s := s.setPort port { x with lanesOk := 0, speed := 0, inSpray := false, fecLock := false, anDone := false, linkUp := false }
    (s.count (pgETH port) 12 1).raise (pgETH port) 1 port)

/-- PORT_REJOIN (R446). -/
def execPortRejoin (port : Nat) (s : State) : Host.Outcome State Fault Refusal :=
  .next (
    let x := s.port port
    if s.portRuns port && x.linkUp && x.fecLock then s.setPort port { x with inSpray := true } else s)

/-- ETH_LINK_UP (R434, R435): negotiation and training in the mode set. -/
def execEthLinkUp (port lanes speed : Nat) (s : State) : Host.Outcome State Fault Refusal :=
  .next (
    let x := s.port port
    if !(s.portRuns port) || !(s.pagePresent (pgETH port)) || (s.page (pgETH port)).off || 8 ≤ port || x.linkUp || x.mode == 0 || speed != x.mode
        || lanes < modeLanes x.mode then s else
    let s := s.setPort port { x with lanesOk := 2 ^ modeLanes x.mode - 1, speed := speed, fecLock := true, anDone := x.anEn,
                                     linkUp := true }
    s.raise (pgETH port) 0 port)

end Sys2Proof.Machine
end

