-- ==== Sys2Proof/Machine/Treadle.lean ====
section
/-!
DEFINITION. The ring interface (R514–R532, R539, R540, R547): received frames and what they change in transit, the ring commands,
training, loss of the ring, and the bypass switch.
-/
namespace Sys2Proof.Machine

/-! ### The local beat (R530) -/

/-- The local beat is in use: the job is SOLO, or the module has no ring (R530). -/
def State.soloBeat (s : State) : Bool := s.power.pg && ((s.jobLoaded && s.soloJob) || !s.trd.ringIn)

/-- The ring state that the module reports: SYNCED on the local beat (R530, R545, R555). -/
def State.linkCode (s : State) : Nat := if s.soloBeat then LinkState.synced.code else s.trd.link.code

/-! ### Joining (R542, R547) -/

/-- The module is worker-role. -/
def State.workerRole (s : State) : Bool := !s.trust.mgrRole

/-- A worker of the job, by its ROSTER entry: not a spare (R543). -/
def State.isWorker (s : State) : Bool := s.workerRole && s.trd.rank != 0xFFFF

/-- The module opens its MEMBERSHIP session to the address in TRD_MGR_ADDR, and JOINED waits for it to open. -/
def State.joinManager (s : State) : State :=
  let mine (kv : Nat × Session) : Bool := kv.2.kind == 1 && kv.2.opener
  if s.trd.mgrAddr == 0 || s.mrn.sessions.any mine then s else
  let s := s.openSession 1 0 s.trd.mgrAddr 0 0
  match s.mrn.sessions.find? mine with
  | some kv => s.send kv.1 ⟨0x0204, 0, statusBytes 1 0 0 s.jobPos⟩
  | none => s

/-- The module joins where it stands in a ring, and a ring manager below the top where its plan is loaded (R542, R547). -/
def State.joinWhere (s : State) : State :=
  match s.mgr.plan with
  | some p => if p.top || s.paused then s else s.joinManager
  | none => if s.workerRole && !s.paused && s.onRing then s.joinManager else s

/-- A write of a word of TRD_MGR_ADDR; with the last word the address is whole, and a module that waits for it joins (R542; log entry 129). -/
def State.writeMgrAddr (s : State) (addr : BitVec 128) (last : Bool) : State :=
  let s := { s with trd := { s.trd with mgrAddr := addr } }
  if last then s.joinWhere else s

/-! ### Training (R524, R525) -/

/-- The interface reaches FRAMED, or SYNCED where it has its compensation. -/
def State.reachFramed (s : State) : State :=
  let again := s.trd.link == .lost
  let s := { s with trd := { s.trd with link := if s.trd.compensated then .synced else .framed, missedRun := 0 } }
  let s := if again then s.count pgTRD 3 1 else s
  let s := if s.trd.compensated then s.raise pgTRD 0 s.trd.pos else s
  if s.mgr.plan.isNone then s.joinWhere else s

/-- A frame whose CRC fails (R521, R555): counted, and 16 within 1,024 beats raise CRC_BURST. -/
def State.badFrame (s : State) : State :=
  let s := s.count pgTRD 0 1
  let l := (s.trd.badAt.filter fun p => decide ((s.trd.tpos + 2 ^ 64 - p) % 2 ^ 64 < 1024)) ++ [s.trd.tpos]
  let s := { s with trd := { s.trd with badAt := if 16 ≤ l.length then [] else l, goodRun := 0 } }
  if 16 ≤ l.length then s.raise pgTRD 4 l.length else s

/-- A good frame: it counts for training, and once FRAMED it may correct the position (R524, R525). The frames that return to their own
head (`own`) correct nothing, and neither does a frame while beats fire from the local generator (R530). -/
def State.goodFrame (s : State) (f : TFrame) (own : Bool) : State :=
  let s := { s with trd := { s.trd with goodRun := s.trd.goodRun + 1, frame := some f } }
  let at_ := (f.pos.toNat + 2 ^ 64 - 1) % 2 ^ 64
  if s.onRing then
    if own || s.soloBeat || s.trd.tpos == at_ then s else State.count { s with trd := { s.trd with tpos := at_ } } pgTRD 5 1
  else if 8 ≤ s.trd.goodRun && (s.trd.link == .lock || s.trd.link == .lost) then
    State.reachFramed (if own || s.soloBeat then s else { s with trd := { s.trd with tpos := at_ } })
  else s

/-! ### Transit (R520, R521, R539) -/

/-- The worker's vote for a VOTE frame: the sampled one, and NOT_READY without one or while its job is not LOADED. -/
def State.votesReady (s : State) (arg : Nat) : Bool :=
  s.job.state == .loaded && (match s.gen.vote with | some v => v.ready && v.pos % 4096 == arg | none => false)

/-- The flags as the module sends them on. -/
def State.passFlags (s : State) (f : TFrame) : W16 :=
  let clear := f.op == opVOTE && !f.trunk && s.isWorker && !(s.votesReady f.arg)
  let stopped := !f.trunk && s.isWorker && s.job.state == .stopped
  let fl := if clear then f.flags &&& 0xFFFE else f.flags
  if stopped then fl ||| 2 else fl

/-- A frame passes through the module: an altered one gets the CRC of what it carries, inverted where the received CRC failed; a
bypassed module forwards nothing. -/
def State.passOn (s : State) (f : TFrame) (flags : W16) : State :=
  if s.trd.closed && !f.trunk then s else
  let g := { f with flags := flags }
  let g := if flags == f.flags then f else if f.good then g.seal else { g with crc := ~~~ (crc16 g.chars) }
  { s with trd := { s.trd with passed := some g } }

/-! ### The bypass switch (R531, R532) -/

/-- The switch begins to close. -/
def State.closeSwitch (s : State) : State :=
  if s.trd.closed && s.trd.closing.isNone then s else { s with trd := { s.trd with closing := some true } }

/-- A BYPASS or UNBYPASS that passes: the named position's switch, and the arrival offset of the modules downstream of it (R522,
R527, R531). The eight copies of a command make one change. -/
def State.switchCommand (s : State) (p : Nat) (byp : Bool) : State :=
  let code := if byp then 1 else 2
  let s :=
    if p < s.trd.pos && s.trd.lastByp.get 0 p != code then
      { s with trd := { s.trd with arrival := if byp then s.trd.arrival - 23000 else s.trd.arrival + 23000 } }
    else s
  let s := { s with trd := { s.trd with lastByp := s.trd.lastByp.put p code } }
  if p != s.trd.pos then s
  else if byp then State.closeSwitch { s with trd := { s.trd with byCommand := true } }
  else
    let s := { s with trd := { s.trd with byCommand := false } }
    if s.trd.byCtl || s.trd.holdLost || (!s.trd.closed && s.trd.closing.isNone) then s
    else { s with trd := { s.trd with closing := some false } }

/-- BYPASS_SWITCH_CHANGE (R532): the switch completes its change; one that was turned back on the way has not changed. -/
def execBypassSwitchChange (s : State) : Host.Outcome State Fault Refusal :=
  .next (
    match s.trd.closing with
    | none => s
    | some b =>
      let t := { s with trd := { s.trd with closing := none, closed := b } }
      if s.trd.closed == b then t else (t.count pgTRD 4 1).raise pgTRD 3 (b2n b))

/-- RING_HOLD_EXPIRY (R531): the ring interface has not refreshed its hold for 16 µs. -/
def execRingHoldExpiry (s : State) : Host.Outcome State Fault Refusal :=
  .next (State.closeSwitch { s with trd := { s.trd with holdLost := true } })

/-- SOLO_PERIOD takes a value in its range, unless the page is locked (R555, R628). -/
def State.setSoloPeriod (s : State) (v : Nat) : State :=
  if (s.page pgTRD).locked || !(decide (250 ≤ v) && decide (v ≤ 1000000)) then s
  else { s with trd := { s.trd with soloPeriod := v } }

/-- A write of TRD_CTL (R531, R555). -/
def State.writeTrdCtl (s : State) (v : W32) : State :=
  let b := bit v.toNat 31
  let s := State.setSoloPeriod { s with trd := { s.trd with byCtl := b } } (v.toNat % 2 ^ 20)
  if b then s.closeSwitch else s

/-- TRD_CTL.BYPASS (R531). -/
def execTrdCtlBypass (v : W32) (s : State) : Host.Outcome State Fault Refusal := .next (s.writeTrdCtl v)

/-! ### Commands at a worker (R410, R411, R522, R540) -/

/-- A decision for the open vote (R410, R411, R540): held until P, applied at once where P has passed; during a sag it is recorded
(R597). -/
def State.takeDecision (s : State) (arg : Nat) (commit : Bool) : State :=
  match s.gen.vote with
  | none => s
  | some v =>
    if s.job.state != .loaded || s.soloJob || v.pos % 4096 != arg || s.trd.heldDecision.isSome then s
    else if posLe v.pos s.jobPos && !s.paused then s.lateDecision commit
    else { s with trd := { s.trd with heldDecision := some (v.pos, commit), heldLate := posLe v.pos s.jobPos && v.pos != s.jobPos } }

/-- VOTE at a worker that has no COMMIT entry at P: its vote is NOT_READY (R539, R555). -/
def State.voteWithout (s : State) (arg : Nat) : State :=
  let here := s.evt.entries.any fun ie => ie.2.valid && ie.2.action == actCOMMIT && ie.2.pos % 4096 == arg
  if !s.isWorker || here then s else State.count { s with gen := { s.gen with lastVote := false } } pgTRD 6 1

/-- A command acts on the module it passes (R522). -/
def State.workerCommand (s : State) (f : TFrame) : State :=
  if f.op == opVOTE then s.voteWithout f.arg
  else if f.op == opCOMMIT then s.takeDecision f.arg true
  else if f.op == opDEFER then s.takeDecision f.arg false
  else if f.op == opSTOP then s.stopUnit 0x0803 0
  else if f.op == opBYPASS then s.switchCommand (f.arg % 128) true
  else if f.op == opUNBYPASS then s.switchCommand (f.arg % 128) false
  else s

/-! ### Frames at a head (R515, R523, R539, R540, R555) -/

/-- A command joins the head's queue, to be sent in eight consecutive frames. -/
def State.queueCmd (s : State) (op arg : Nat) : State :=
  if s.trd.cmds.any fun c => c.op == op && c.arg == arg then s
  else { s with trd := { s.trd with cmds := s.trd.cmds ++ [(⟨op, arg, 8⟩ : RingCmd)] } }

/-- The plan's vote lead meets the bound for the heads' round trips (R541). -/
def State.leadOk (s : State) : Bool :=
  match s.mgr.plan with
  | none => false
  | some p =>
    decide ((if p.trunk then 2 * s.trd.dR + 2 * s.trd.dT + 6 else 2 * s.trd.dR + 4) ≤ p.voteLead)

/-- The round trip of a frame of the head's own, in beats, measured at training (R539, R555). With a trunk the bound on the lead and the
times of TALLY need the other round trip too; the spec does not say how a head learns it, so it is a free value (log entry 128). -/
def State.measureTrip (s : State) (f : TFrame) : State :=
  let d := min 0xFFFF ((s.trd.tpos + 2 + 2 ^ 64 - f.pos.toNat) % 2 ^ 64)
  let trunk := match s.mgr.plan with | some p => p.trunk | none => false
  let (i, s) := if trunk then s.draw else (0, s)
  let other := if trunk then Config.otherTrip i % 0x10000 else 0
  { s with trd := if f.trunk then { s.trd with dT := d, dR := other } else { s.trd with dR := d, dT := other } }

/-- Training of the head's ring is over once its own frames return, which shows that the positions in the ring are FRAMED (R520; DEDUCED, log
entry 51); the manager runs if the lead is long enough, and one that is too short holds it in TRAINING (R541, R557). -/
def State.endTraining (s : State) (f : TFrame) : State :=
  if s.mgr.state != .training || !s.onRing || !f.good then s else
  let s := if s.trd.trained then s else s.measureTrip f
  let s := { s with trd := { s.trd with trained := true } }
  if s.leadOk then { s with mgr := { s.mgr with state := .running, leadHeld := false } }
  else if s.mgr.leadHeld then s
  else State.raise { s with mgr := { s.mgr with leadHeld := true } } pgMGR 3 s.trd.dR

/-- The head's own frame is back: a VOTE or TALLY gives its result, and ANY_STOPPED raises its event. -/
def State.frameBack (s : State) (f : TFrame) : State :=
  let s := s.endTraining f
  let ready := f.good && bit f.flags.toNat 0
  let s := match s.trd.headVote with
    | some h =>
      if h.pos % 4096 != f.arg then s
      else if f.op == opVOTE && !f.trunk && h.ringReady.isNone then
        { s with trd := { s.trd with headVote := some { h with ringReady := some ready } } }
      else if f.op == opTALLY && f.trunk && h.trunkReady.isNone then
        { s with trd := { s.trd with headVote := some { h with trunkReady := some ready } } }
      else s
    | none => s
  if f.good && bit f.flags.toNat 1 then s.raise pgTRD 5 s.trd.tpos else s

/-- The job position nearest to the present one with these low 12 bits. -/
def State.nearPos (s : State) (arg : Nat) : Nat :=
  let d := (arg + 4096 - s.jobPos % 4096) % 4096
  (if d < 2048 then s.jobPos + d else s.jobPos + 2 ^ 64 + d - 4096) % 2 ^ 64

/-- A decision that a ring manager has from the trunk goes on into its ring, whether or not it has taken the commit up (R523, R539). -/
def State.relayDecision (s : State) (arg : Nat) (commit : Bool) : State :=
  let put (h : HeadVote) : State := { s with trd := { s.trd with headVote := some { h with decision := some commit } } }
  match s.trd.headVote with
  | some h => if h.pos % 4096 != arg then put ⟨s.nearPos arg, none, none, none, none, none, false⟩ else if h.decision.isNone then put h else s
  | none => put ⟨s.nearPos arg, none, none, none, none, none, false⟩

/-- A trunk frame at a ring manager: a TALLY that its ring's vote clears, and a command that goes on into the ring. -/
def State.trunkFrame (s : State) (f : TFrame) : State :=
  let mineReady := match s.trd.headVote with
    | some h => h.ringReady == some true && h.pos % 4096 == f.arg
    | none => false
  let s := s.passOn f (if f.op == opTALLY && !mineReady then f.flags &&& 0xFFFE else f.flags)
  if !f.good then s
  else if f.op == opCOMMIT || f.op == opDEFER then s.relayDecision f.arg (f.op == opCOMMIT)
  else if f.op == opSTOP || f.op == opBYPASS || f.op == opUNBYPASS then s.queueCmd f.op f.arg
  else s

/-! ### Received frames -/

/-- A frame arrives (R516, R520–R525). The trunk switch of a worker-role module is closed at all times. -/
def State.receiveFrame (s : State) (f : TFrame) : State :=
  if !s.power.pg || s.trd.link == .down then s
  else if f.trunk && s.workerRole then s
  else
    let own := s.mgr.plan.isSome && (!f.trunk || s.headsTrunk)
    let s := if f.good then s.goodFrame f own else s.badFrame
    if s.mgr.plan.isSome then
      if f.trunk && !s.headsTrunk then s.trunkFrame f else s.frameBack f
    else
      let s := s.passOn f (s.passFlags f)
      if f.good && s.onRing then s.workerCommand f else s

/-- NOP (R521, R525). -/
def execNop (f : TFrame) (s : State) : Host.Outcome State Fault Refusal := .next (s.receiveFrame { f with op := opNOP })

/-- VOTE (R520, R539). -/
def execVote (f : TFrame) (s : State) : Host.Outcome State Fault Refusal := .next (s.receiveFrame { f with op := opVOTE })

/-- TALLY (R520, R539). -/
def execTally (f : TFrame) (s : State) : Host.Outcome State Fault Refusal := .next (s.receiveFrame { f with op := opTALLY })

/-- COMMIT (R410, R411, R540). -/
def execCommit (f : TFrame) (s : State) : Host.Outcome State Fault Refusal := .next (s.receiveFrame { f with op := opCOMMIT })

/-- DEFER (R410, R411, R540). -/
def execDefer (f : TFrame) (s : State) : Host.Outcome State Fault Refusal := .next (s.receiveFrame { f with op := opDEFER })

/-- STOP (R522). -/
def execStop (f : TFrame) (s : State) : Host.Outcome State Fault Refusal := .next (s.receiveFrame { f with op := opSTOP })

/-- BYPASS (R522, R527, R531). -/
def execBypass (f : TFrame) (s : State) : Host.Outcome State Fault Refusal := .next (s.receiveFrame { f with op := opBYPASS })

/-- UNBYPASS (R522, R527, R531). -/
def execUnbypass (f : TFrame) (s : State) : Host.Outcome State Fault Refusal :=
  .next (s.receiveFrame { f with op := opUNBYPASS })

/-! ### Lock, loss and the position register -/

/-- RING_LOCK (R524): bit and comma lock. -/
def execRingLock (s : State) : Host.Outcome State Fault Refusal :=
  .next (if s.trd.link == .down && s.power.pg && s.trd.ringIn then { s with trd := { s.trd with link := .lock, goodRun := 0 } } else s)

/-- TREADLE_LOST (R524, R526): 64 beats have passed without a good frame. -/
def execTreadleLost (s : State) : Host.Outcome State Fault Refusal :=
  .next (
    if !s.onRing || s.trd.missedRun < 64 then s else
    let s := { s with trd := { s.trd with link := .lost, goodRun := 0 } }
    let s := (s.count pgTRD 7 1).raise pgTRD 1 s.trd.tpos
    if s.workerRole && !s.soloJob then s.stopUnit 0x0802 0 else s)

/-- A read of TRD_POS_LO latches POS_HI (R555). -/
def State.latchPosHi (s : State) : State :=
  { s with trd := { s.trd with posHi := BitVec.ofNat 32 (s.trd.tpos / 2 ^ 32) } }

/-- TRD_POS_LO read (R555). -/
def execTrdPosLoRead (s : State) : Host.Outcome State Fault Refusal := .next s.latchPosHi

end Sys2Proof.Machine
end

