-- ==== Sys2Proof/Machine/Manager.lean ====
section
/-!
DEFINITION. Membership (R514–R517, R527, R538, R541–R557): rosters as the manager builds them and a module applies them, heartbeats, and
what the manager does on a STATUS, on a failure and at a restore.
-/
namespace Sys2Proof.Machine

/-! ### Entries as bytes (R534, R543) -/

def Member.bytes (m : Member) : Bytes :=
  leBytes 2 m.rank ++ leBytes 1 m.ring ++ leBytes 1 m.pos ++ leBytes 1 (b2n m.spare) ++ leBytes 1 m.state ++ zeros 2
    ++ fitBytes 16 m.id ++ beBytes 16 m.addrA.toNat ++ beBytes 16 m.addrB.toNat ++ zeros 8

def Member.parse (b : Bytes) : Member :=
  { rank := leAt b 0 2, ring := leAt b 2 1, pos := leAt b 3 1, spare := leAt b 4 1 == 1, state := leAt b 5 1, id := part b 8 16,
    addrA := BitVec.ofNat 128 (beNat (part b 0x18 16)), addrB := BitVec.ofNat 128 (beNat (part b 0x28 16)) }

/-- EV_FLAGS. -/
def EvEntry.flags (e : EvEntry) : Nat := b2n e.valid + 2 * b2n e.late + 4 * b2n e.mgr

def EvEntry.bytes (e : EvEntry) : Bytes :=
  leBytes 8 e.pos ++ leBytes 4 e.period ++ leBytes 1 e.action ++ leBytes 1 e.flags ++ zeros 2 ++ leBytes 8 e.arg0.toNat
    ++ leBytes 8 e.arg1.toNat

def EvEntry.parse (b : Bytes) : EvEntry :=
  { pos := leAt b 0 8, period := leAt b 8 4, action := leAt b 12 1, valid := bit (leAt b 13 1) 0, late := bit (leAt b 13 1) 1,
    mgr := bit (leAt b 13 1) 2, arg0 := BitVec.ofNat 64 (leAt b 16 8), arg1 := BitVec.ofNat 64 (leAt b 24 8) }

/-! ### The event table's conditions (R535, R538) -/

/-- Who writes an entry. -/
inductive EvWriter where
  | job | manager | host
deriving DecidableEq, Repr

/-- R535's column of writers; a SOLO job writes COMMIT and SNAP_OPEN itself. -/
def mayWrite (w : EvWriter) (solo : Bool) (act : Nat) : Bool :=
  if act == actCOMMIT || act == actSNAP_OPEN then w == .manager || (w == .job && solo)
  else if act == actRELEASE || act == actKNOT_ADD then w == .job
  else act == actSAMPLE || act == actMAINT_OPEN

/-- Two COMMIT entries of which some occurrences lie less than `gap` beats apart. -/
def commitsClash (gap : Nat) (a b : EvEntry) : Bool :=
  let d := (b.pos : Int) - (a.pos : Int)
  let near (x : Int) : Bool := decide (x.natAbs < gap)
  let g := if a.period == 0 then b.period else if b.period == 0 then a.period else Nat.gcd a.period b.period
  if a.period == 0 && b.period == 0 then near d
  else if a.period == 0 then
    -- b periodic, from b.pos on
    (if d > 0 then near d else let r := d.natAbs % g; decide (r < gap) || decide (g - r < gap))
  else if b.period == 0 then
    (if d < 0 then near d else let r := d.natAbs % g; decide (r < gap) || decide (g - r < gap))
  else let r := (d % (g : Int)).toNat; decide (r < gap) || decide (g - r < gap)

/-- The COMMIT entries of a table keep their distance, a periodic one from itself too. -/
def commitsApart (gap : Nat) : List EvEntry → Bool
  | [] => true
  | e :: rest =>
    !(e.period != 0 && decide (e.period < gap)) && !(rest.any fun f => commitsClash gap e f) && commitsApart gap rest

/-- A table that R538 accepts, for a vote lead and the knots that the job's images declare. -/
def tableOk (lead : Nat) (declared : Nat → Bool) (l : List EvEntry) : Bool :=
  let l := l.filter fun e => e.valid
  let commits := l.filter fun e => e.action == actCOMMIT
  decide (l.length ≤ 1024) && (l.all fun e => decide (1 ≤ e.action) && decide (e.action ≤ 6))
    && (commits.all fun e => decide (lead ≤ e.pos)) && commitsApart (2 * lead + 1) commits
    && (l.all fun e => !(e.action == actRELEASE || e.action == actKNOT_ADD) || declared e.arg0.toNat)

/-- A knot that some loaded image declares. -/
def State.knotDeclared (s : State) (k : Nat) : Bool :=
  decide (k ≤ 8191) && s.stations.any fun t => t.2.img.knots.any fun d => d.knot == k

/-- The vote lead in force: the mapping's, else RO_VOTE_LEAD. -/
def State.leadInForce (s : State) : Nat := if s.job.mapping.isSome then s.mapLead else s.trd.voteLead

def State.evtOk (s : State) (l : List EvEntry) : Bool := tableOk s.leadInForce s.knotDeclared l

/-- The EVT page latches 0x0809 and raises REFUSED (R538, R556). -/
def State.evtRefused (s : State) : State := (s.latchErr pgEVT 0x0809 (unitInfo pgEVT)).raise pgEVT 1 0x0809

/-- Entries put into free indexes, in order. -/
def State.addEntries (s : State) (l : List EvEntry) : State :=
  l.foldl (fun s e =>
    match lowestFree ((s.evt.entries.filter fun ie => ie.2.valid).map (·.1)) 1024 with
    | some i => s.putEntry i e
    | none => s) s

/-- The entries with SRC = 1 are replaced (R545, R546). -/
def State.replaceSchedule (s : State) (l : List EvEntry) : State :=
  State.addEntries { s with evt := { s.evt with entries := s.evt.entries.filter fun ie => !ie.2.mgr } }
    (l.map fun (e : EvEntry) => { e with mgr := true, late := false })

/-! ### A received ROSTER (R545–R547) -/

/-- The header with the fields that differ between parts set to zero. -/
def rosterKey (h : Bytes) : Bytes := patch (patch (patch (patch (part h 0 64) 0x12 (zeros 2)) 0x30 (zeros 2)) 0x34 (zeros 2)) 0x36 (zeros 2)

/-- A part, if its lengths and indexes are in order. -/
def rosterPart (p : Bytes) : Option RosterPart :=
  let ns := leAt p 0x12 1
  let nm := leAt p 0x13 1
  let parts := leAt p 0x32 2
  if p.length != 64 + 32 * ns + 64 * nm || decide (8960 < p.length) || parts == 0 || decide (256 < parts)
      || decide (parts ≤ leAt p 0x30 2) then none
  else some {
    hdr := rosterKey p, version := leAt p 0 4, part := leAt p 0x30 2, parts := parts, schedFirst := leAt p 0x36 2,
    sched := (List.range ns).map fun i => EvEntry.parse (part p (64 + 32 * i) 32), memFirst := leAt p 0x34 2,
    mem := (List.range nm).map fun i => Member.parse (part p (64 + 32 * ns + 64 * i) 64) }

/-- Runs placed at their first indexes: in order of index without overlap or gap, or `none`. -/
def placeRuns {α : Type} : Nat → Nat → List (Nat × List α) → Option (List α)
  | 0, _, l => if l.isEmpty then some [] else none
  | fuel + 1, at_, l =>
    match l.find? fun r => r.1 == at_ with
    | none => if l.isEmpty then some [] else none
    | some r =>
      match placeRuns fuel (at_ + r.2.length) (l.filter fun q => q.1 != at_) with
      | some rest => some (r.2 ++ rest)
      | none => none

def runsOf {α : Type} (l : List (Nat × List α)) : Option (List α) :=
  let l := l.filter fun r => !r.2.isEmpty
  if (l.map (·.1)).Nodup then placeRuns (l.length + 1) 0 l else none

/-- A complete version is applied as a whole: own entry, compensation, schedule, resume and table (R546). -/
def State.applyRoster (s : State) (h : Bytes) (sched : List EvEntry) (mem : List Member) : State :=
  let flags := leAt h 0x14 4
  let t := { s.trd with
    ring := leAt h 4 1, pos := leAt h 5 1, rank := leAt h 6 2, arrival := leAt h 8 4, target := leAt h 12 4,
    voteLead := leAt h 0x10 2, members := mem, version := leAt h 0 4, parts := [], compensated := true,
    resume := if bit flags 1 then some ⟨leAt h 0x18 8, leAt h 0x20 8, leAt h 0x28 8⟩ else s.trd.resume }
  let s := { s with trd := t }
  let s := if bit flags 0 then s.replaceSchedule sched else s
  if s.trd.link == .framed then
    State.raise { s with trd := { s.trd with link := .synced } } pgTRD 0 s.trd.pos
  else s

/-- The version is discarded whole (R546). -/
def State.rejectRoster (s : State) (version : Nat) : State :=
  State.sendStatus { s with trd := { s.trd with parts := [] } } 10 0 version

/-- A version whose parts are all there: applied, or rejected where its parts do not fit together. -/
def State.completeRoster (s : State) (v : Nat) (ps : List RosterPart) (h : Bytes) : State :=
  match runsOf (ps.map fun p => (p.schedFirst, p.sched)), runsOf (ps.map fun p => (p.memFirst, p.mem)) with
  | some sched, some mem =>
    let kept := (s.evt.entries.filter fun ie => !ie.2.mgr).map (·.2)
    if bit (leAt h 0x14 4) 0 && !(s.evtOk (kept ++ sched)
        && sched.all fun e => mayWrite .manager false e.action) then s.evtRefused.rejectRoster v
    else s.applyRoster h sched mem
  | _, _ => s.rejectRoster v

/-- ROSTER at a module (R546). -/
def State.takeRoster (s : State) (p : Bytes) : State :=
  let v := leAt p 0 4
  match rosterPart p with
  | none => s.rejectRoster v
  | some r =>
    let old := s.trd.parts
    if old.any fun q => decide (v < q.version) then s else
    let old := old.filter fun q => q.version == v
    if old.any fun q => q.hdr != r.hdr || q.part == r.part then s.rejectRoster v
    else
      let ps := old ++ [r]
      if ps.length < r.parts then { s with trd := { s.trd with parts := ps } }
      else s.completeRoster v ps p

/-! ### The manager's roster (R527, R545, R546) -/

/-- A module in the ring: JOINED or later and not FAILED. -/
def Member.inRing (m : Member) : Bool := m.state != 0 && m.state != 4

def State.memberAt (s : State) (ring pos : Nat) : Option Member :=
  s.mgr.members.find? fun m => m.ring == ring && m.pos == pos

/-- a_i in ps (R527). -/
def State.arrivalOf (s : State) (ring i : Nat) : Nat :=
  match s.mgr.plan with
  | none => 0
  | some pl =>
    let links := ((List.range i).map fun j => pl.links.getD (j + 1) 0).foldl (· + ·) 0
    let pass := ((List.range (i - 1)).map fun j =>
      match s.memberAt ring (j + 1) with | some m => if m.inRing then 24000 else 1000 | none => 1000).foldl (· + ·) 0
    links + pass

/-- D in ps (R527), over the ring's positions. -/
def State.targetOf (s : State) (ring : Nat) : Nat :=
  ((s.mgr.members.filter fun m => m.ring == ring).map fun m => s.arrivalOf ring m.pos).foldl max 0 + 60000

/-- A ring manager's session at the top manager. -/
def State.ringSession (s : State) (ring : Nat) : Option Nat :=
  (s.mrn.sessions.find? fun kv => kv.2.kind == 1 && !kv.2.opener && kv.2.live && kv.2.rank == ringRank ring).map (·.1)

/-- a_i in ps of the ring manager of a ring, which stands at trunk position ring + 1 (R527, R528; DESIGN CHOICE, log entry 130). -/
def State.trunkArrival (s : State) (ring : Nat) : Nat :=
  match s.mgr.plan with
  | none => 0
  | some pl =>
    ((List.range (ring + 1)).map fun j => pl.trunkLinks.getD (j + 1) 0).foldl (· + ·) 0
      + ((List.range ring).map fun r => if (s.ringSession r).isSome then 24000 else 1000).foldl (· + ·) 0

/-- The compensation for a recipient: its a_i and its target. Position 0 is the ring manager itself (R527, R528). -/
def State.compensation (s : State) (m : Member) : Nat × Nat :=
  if m.pos == 0 then
    (s.trunkArrival m.ring,
      ((List.range ((s.mgr.plan.map (·.rings)).getD 0)).map s.trunkArrival).foldl max 0 + 60000)
  else (s.arrivalOf m.ring m.pos, s.targetOf m.ring)

/-- The vote lead that a ROSTER carries: the top manager's, which a ring manager sends on (R541). -/
def State.rosterLead (s : State) : Nat :=
  match s.mgr.plan with
  | some pl => if pl.top then pl.voteLead else s.trd.voteLead
  | none => 0

/-- Pieces of at most `n`, each with the index of its first element; `fuel` bounds their number. -/
def pieces {α : Type} (n : Nat) : Nat → Nat → List α → List (Nat × List α)
  | 0, _, _ => []
  | fuel + 1, at_, l => if l.isEmpty then [] else (at_, l.take n) :: pieces n fuel (at_ + n) (l.drop n)

/-- The schedule that the manager sends: its plan's, as written, which a recipient advances to its own position (R537, R550). -/
def State.schedule (s : State) : List EvEntry :=
  match s.mgr.plan with
  | some pl => pl.schedule.map fun (e : EvEntry) => { e with mgr := true, late := false }
  | none => []

/-- The parts of a ROSTER for a member; `repl` that its schedule replaces the recipient's (R545). -/
def State.rosterParts (s : State) (m : Member) (res : Option Resume) (repl : Bool) : List Bytes :=
  let sched := if repl then s.schedule else []
  let mem := s.mgr.members
  let runs : List (Nat × List EvEntry × Nat × List Member) :=
    ((pieces 255 (sched.length + 1) 0 sched).map fun r => (r.1, r.2, 0, []))
      ++ ((pieces 138 (mem.length + 1) 0 mem).map fun r => (0, [], r.1, r.2))
  let runs := if runs.isEmpty then [(0, [], 0, [])] else runs
  let (a, d) := s.compensation m
  runs.zipIdx.map fun (r, k) =>
    leBytes 4 s.mgr.version ++ leBytes 1 m.ring ++ leBytes 1 m.pos ++ leBytes 2 m.rank ++ leBytes 4 a
      ++ leBytes 4 d ++ leBytes 2 s.rosterLead ++ leBytes 1 r.2.1.length ++ leBytes 1 r.2.2.2.length
      ++ leBytes 4 (b2n repl + 2 * b2n res.isSome)
      ++ leBytes 8 ((res.map (·.at_)).getD 0) ++ leBytes 8 ((res.map (·.jobPos)).getD 0) ++ leBytes 8 ((res.map (·.ckpt)).getD 0)
      ++ leBytes 2 k ++ leBytes 2 runs.length ++ leBytes 2 r.2.2.1 ++ leBytes 2 r.1 ++ zeros 8
      ++ (r.2.1.flatMap EvEntry.bytes) ++ (r.2.2.2.flatMap Member.bytes)

/-- The session on which the manager reaches a member: its own, or, over the trunk, its ring manager's. -/
def State.memberSession (s : State) (m : Member) : Option Nat :=
  let live (kv : Nat × Session) : Bool := kv.2.kind == 1 && !kv.2.opener && kv.2.live
  let own := s.mrn.sessions.find? fun kv =>
    live kv && (if m.spare then kv.2.rank == 0xFFFF && (kv.2.addr == m.addrA || kv.2.addr == m.addrB)
      else (kv.2.rank == m.rank || kv.2.rank == 0xFFFF) && (kv.2.addr == m.addrA || kv.2.addr == m.addrB))
  if s.headsTrunk then s.ringSession m.ring else own.map (·.1)

def State.sendMember (s : State) (m : Member) (typ : Nat) (payload : Bytes) : State :=
  match s.memberSession m with
  | some i => s.send i ⟨typ, 0, payload⟩
  | none => s

/-- Ring and position as one key. -/
def memberKey (ring pos : Nat) : Nat := ring * 256 + pos

/-- A ROSTER to one module. What it carried is kept, since a rejected version is sent again whole (R546). -/
def State.sendRoster (s : State) (m : Member) (res : Option Resume) (repl : Bool) : State :=
  let s := (s.rosterParts m res repl).foldl (fun s p => s.sendMember m 0x0200 p) s
  { s with mgr := { s.mgr with sent := s.mgr.sent.put (memberKey m.ring m.pos) (s.mgr.version, repl, res) } }

/-- A ROSTER to every module of the table; one with RESUME carries the schedule (R550), and so does one for a module that joins (R547). -/
def State.sendRostersTo (s : State) (res : Option Resume) (joins : Member → Bool) : State :=
  s.mgr.members.foldl (fun s m => s.sendRoster m res (res.isSome || joins m)) s

def State.sendRosters (s : State) (res : Option Resume) : State := s.sendRostersTo res fun _ => false

/-- The table as the manager has changed it: a change raises the version (R545, R549). -/
def State.setMembers (s : State) (l : List Member) : State :=
  if l == s.mgr.members then s else { s with mgr := { s.mgr with members := l, version := (s.mgr.version + 1) % 2 ^ 32 } }

/-- A ROSTER follows every change of the table (R545). -/
def State.changeMembers (s : State) (l : List Member) : State :=
  if l == s.mgr.members then s else (s.setMembers l).sendRosters none

/-- The first member of each ring, of a list. -/
def firstOfRings : List Member → List Nat → List Member
  | [], _ => []
  | m :: rest, seen => if seen.contains m.ring then firstOfRings rest seen else m :: firstOfRings rest (m.ring :: seen)

/-- A message to every worker of the job; over the trunk one to each ring manager, which relays it. -/
def State.sendWorkers (s : State) (typ : Nat) (payload : Bytes) : State :=
  (if s.headsTrunk then firstOfRings s.mgr.members [] else s.mgr.members.filter fun m => !m.spare && m.state != 4).foldl
    (fun s m => s.sendMember m typ payload) s

/-! ### What the manager decides (R548–R551) -/

/-- The table with one entry changed. -/
def State.withMember (s : State) (ring pos : Nat) (f : Member → Member) : List Member :=
  s.mgr.members.map fun m => if m.ring == ring && m.pos == pos then f m else m

def State.setMember (s : State) (ring pos : Nat) (f : Member → Member) : State :=
  { s with mgr := { s.mgr with members := s.withMember ring pos f } }

/-- The ranks of the job, which its plan's table gives (R550, R559). -/
def State.jobRanks (s : State) : List Nat := match s.mgr.plan with | some pl => ranksOf pl.members | none => []

/-- The job's ranks: entries of role WORKER that have not failed. -/
def State.workers (s : State) : List Member := s.mgr.members.filter fun m => !m.spare && m.state != 4

/-- STOP goes out on the trunk or the ring (R522). -/
def State.sendStop (s : State) : State := s.queueCmd opSTOP (0x0803 % 4096)

/-- The job is held (R548). -/
def State.holdJob (s : State) (err : Nat) : State :=
  if s.mgr.state == .held then s else
  let s := { s with mgr := { s.mgr with state := .held, collateral := false } }
  (s.sendStop).raise pgMGR 3 err

/-- The spare that takes over for a rank of the ring (R549). -/
def State.chooseSpare (s : State) (ring : Nat) : Option Member :=
  let l := s.mgr.members.filter fun m => m.spare && m.state == 1
  let least (l : List Member) : Option Member :=
    l.foldl (fun (b : Option Member) m =>
      match b with
      | none => some m
      | some c => if m.ring < c.ring ∨ (m.ring = c.ring ∧ m.pos < c.pos) then some m else b) none
  match least (l.filter fun m => m.ring == ring) with
  | some m => some m
  | none => least l

/-- The manager declares a rank failed (R549, R551); only the top manager does. A spare holds no rank: its entry reads FAILED, and the job
goes on (log entry 52). -/
def State.declareFailed (s : State) (m : Member) (cause : Nat) : State :=
  let top := match s.mgr.plan with | some pl => pl.top | none => false
  if !top || m.state == 4 then s else
  let failed := s.withMember m.ring m.pos fun x => { x with state := 4 }
  if m.spare then s.changeMembers failed else
  let s := { s with mgr := { s.mgr with members := failed } }
  let s := { s with mgr := { s.mgr with collateral := false } }
  let s := (s.count pgMGR 0x54 1).raise pgMGR 0 m.rank
  let s := s.sendWorkers 0x0202 (leBytes 2 m.rank ++ leBytes 1 m.ring ++ leBytes 1 m.pos ++ leBytes 2 cause ++ zeros 2
    ++ leBytes 4 s.mgr.version)
  let s := if s.headsTrunk then s else s.queueCmd opBYPASS m.pos
  let s := s.sendStop
  match s.chooseSpare m.ring with
  | none =>
    let s := (s.raise pgMGR 2 m.rank).holdJob cause
    State.sendRosters { s with mgr := { s.mgr with version := (s.mgr.version + 1) % 2 ^ 32 } } none
  | some sp =>
    let v := (s.mgr.version + 1) % 2 ^ 32
    let s := s.setMember sp.ring sp.pos fun x => { x with rank := m.rank, spare := false, state := 5 }
    let s := { s with mgr := { s.mgr with version := v, state := .restoring, restored := [] } }
    let s := (s.count pgMGR 0x58 1).raise pgMGR 1 m.rank
    let s := s.sendMember sp 0x0203 (leBytes 2 m.rank ++ leBytes 1 m.ring ++ leBytes 1 m.pos ++ leBytes 4 v
      ++ leBytes 8 s.mgr.ckpt.toNat)
    s.sendRosters none

/-- A ROSTER with RESUME to every module; the manager's own positions start there too (R547, R550). -/
def State.startJob (s : State) (jobPos : Nat) (ckpt : Nat) : State :=
  let lead := match s.mgr.plan with | some pl => pl.voteLead | none => 0
  let r : Resume := ⟨(s.trd.tpos + lead) % 2 ^ 64, jobPos, ckpt⟩
  let s := s.setMembers (s.mgr.members.map fun (m : Member) => if m.spare || m.state == 4 then m else { m with state := 2 })
  let s := (s.sendRosters (some r)).replaceSchedule s.schedule
  let s := { s with trd := { s.trd with resume := some r }, mgr := { s.mgr with state := .running } }
  s.raise pgMGR 4 (jobPos % 2 ^ 32)

/-- Stops after which the manager declares the rank failed (R548). -/
def failingStop (err : Nat) : Bool := [0x0301, 0x0303, 0x0308, 0x030B, 0x0801, 0x0802].contains err

/-- The rejected version goes out again whole, with what it carried to this module (R546); where a newer version has gone out since, that
one stands for it (DEDUCED, log entry 50). -/
def State.sendAgain (s : State) (m : Member) (version : Nat) : State :=
  let (v, repl, res) := s.mgr.sent.get (0, false, none) (memberKey m.ring m.pos)
  if v == version && v == s.mgr.version then s.sendRoster m res repl else s

/-- A STATUS of a member at the top manager (R545–R551, R559). -/
def State.managerStatus (s : State) (m : Member) (code err arg pos : Nat) : State :=
  let st (s : State) (v : Nat) : State := s.changeMembers (s.withMember m.ring m.pos fun x => { x with state := v })
  if code == 1 then
    let t := s.withMember m.ring m.pos fun x => { x with state := 1 }
    if s.mgr.leadHeld then s.changeMembers t else
    let joins (x : Member) : Bool := x.ring == m.ring && x.pos == m.pos
    let s :=
      if t == s.mgr.members then (match s.memberAt m.ring m.pos with | some x => s.sendRoster x none true | none => s)
      else (s.setMembers t).sendRostersTo none joins
    if s.headsTrunk then s else s.queueCmd opUNBYPASS m.pos
  else if code == 2 then
    let s := if m.state == 1 then st s 2 else s
    if s.mgr.state == .running && !s.started && s.trd.resume.isNone && s.workers.all fun x => x.state == 2 then s.startJob 0 0 else s
  else if code == 3 then
    let s := if m.state == 5 then s else st s 3
    if failingStop err then s.declareFailed m err
    else if err == 0x0522 || err == 0x0523 then
      (if s.mgr.state == .restoring then s else { s with mgr := { s.mgr with collateral := true } })
    else if s.mgr.state == .restoring && err == 0x0803 then s
    else s.holdJob err
  else if code == 4 then s.declareFailed m err
  else if code == 5 then s.record pgMGR 0x0160 0 m.rank none
  else if code == 6 then
    if s.mgr.state != .restoring || arg != s.mgr.ckpt.toNat then s else
    let done := if s.mgr.restored.contains m.rank then s.mgr.restored else s.mgr.restored ++ [m.rank]
    let s := { s with mgr := { s.mgr with restored := done } }
    if s.jobRanks.all done.contains then s.startJob s.mgr.ckptPos s.mgr.ckpt.toNat else s
  else if code == 7 then s.holdJob err
  else if code == 8 then
    let done := s.mgr.snapDone.get [] arg
    let done := if done.contains m.rank then done else done ++ [m.rank]
    let s := { s with mgr := { s.mgr with snapDone := s.mgr.snapDone.put arg done } }
    if s.jobRanks.all done.contains && !(s.mgr.snapAbandoned.contains arg) then
      State.raise { s with mgr := { s.mgr with ckpt := BitVec.ofNat 64 arg, ckptPos := pos } } pgMGR 5 arg
    else s
  else if code == 9 then { s with mgr := { s.mgr with snapAbandoned := s.mgr.snapAbandoned ++ [arg] } }
  else if code == 10 then
    let n := s.mgr.rejected.get 0 arg + 1
    let s := { s with mgr := { s.mgr with rejected := s.mgr.rejected.put arg n } }
    if 2 ≤ n then s.holdJob 0 else s.sendAgain m arg
  else s

/-- COLLATERAL_WAIT_EXPIRY (R548): no failure has been declared within twice T_DEAD. -/
def execCollateralWaitExpiry (s : State) : Host.Outcome State Fault Refusal :=
  .next (if s.mgr.collateral then State.holdJob { s with mgr := { s.mgr with collateral := false } } 0x0522 else s)

/-! ### Membership messages as they are delivered (R542, R545) -/

/-- The member that a worker's or spare's session belongs to. -/
def State.sessionMember (s : State) (x : Session) : Option Member :=
  s.mgr.members.find? fun m =>
    m.state != 4 && (x.addr == m.addrA || x.addr == m.addrB) && (x.rank == 0xFFFF || x.rank == m.rank)

/-- The session of a ring manager to its top manager. -/
def State.topSession (s : State) : Option Nat := s.mgrSession

/-- A ring manager as the table would name it: at position 0 of its ring, with no rank. -/
def ringHead (ring : Nat) : Member :=
  { rank := 0xFFFF, ring := ring, pos := 0, spare := false, state := 1, id := [], addrA := 0, addrB := 0 }

/-- A ring manager joins: every ring manager has its compensation and the table, since those after it on the trunk count it (R527, R528). -/
def State.ringJoins (s : State) : State :=
  (List.range ((s.mgr.plan.map (·.rings)).getD 0)).foldl (fun s r => s.sendRoster (ringHead r) none false) s

/-- STATUS at a manager: the top manager acts on it; a ring manager relays it, naming the worker by ring and position in bytes 2 and 3,
since the top manager acts on the worker that it comes from (DESIGN CHOICE, log entry 131). -/
def State.takeStatus (s : State) (x : Session) (p : Bytes) : State :=
  match s.mgr.plan with
  | none => s
  | some pl =>
    if pl.top && pl.trunk && leAt p 3 1 == 0 then (if leAt p 0 2 == 1 then s.ringJoins else s) else
    let m :=
      if pl.top && pl.trunk then s.memberAt (leAt p 2 1) (leAt p 3 1) else s.sessionMember x
    match m with
    | none => s
    | some m =>
      if pl.top then s.managerStatus m (leAt p 0 2) (leAt p 4 2) (leAt p 8 8) (leAt p 16 8)
      else
        let s := if leAt p 0 2 == 1 then s.setMember m.ring m.pos fun x => { x with state := 1 } else s
        match s.topSession with
        | some i => s.send i ⟨0x0204, 0, patch p 2 (leBytes 1 m.ring ++ leBytes 1 m.pos)⟩
        | none => s

/-- HEARTBEAT at a manager: a ring manager relays it. -/
def State.takeHeartbeat (s : State) (p : Bytes) : State :=
  match s.mgr.plan, s.topSession with
  | some pl, some i => if pl.top then s else s.send i ⟨0x0201, 0, p⟩
  | _, _ => s

/-- What a ring manager keeps of the ROSTERs that it relays, once it has every part of one: table and version, the schedule, and the
position at which the job starts or resumes (R543, R547, R550). -/
def State.keepRoster (s : State) (p : Bytes) : State :=
  match rosterPart p with
  | none => s
  | some r =>
    let ps := (s.trd.parts.filter fun q => q.hdr == r.hdr && q.part != r.part) ++ [r]
    let s := { s with trd := { s.trd with parts := ps } }
    if ps.length < r.parts then s else
    match runsOf (ps.map fun p => (p.schedFirst, p.sched)), runsOf (ps.map fun p => (p.memFirst, p.mem)) with
    | some sched, some mem =>
      let flags := leAt p 0x14 4
      let s := { s with
        mgr := { s.mgr with members := mem, version := r.version },
        trd := { s.trd with parts := [], voteLead := leAt p 0x10 2,
                            resume := if bit flags 1 then some ⟨leAt p 0x18 8, leAt p 0x20 8, leAt p 0x28 8⟩ else s.trd.resume } }
      if bit flags 0 then s.replaceSchedule sched else s
    | _, _ => { s with trd := { s.trd with parts := [] } }

/-- A part goes on to its recipient unchanged (R546). Its last one is followed by a ROSTER of the ring manager's own, with the compensation
that it computes (R527; DESIGN CHOICE, log entry 50), and where the version answers a join, by UNBYPASS (R547). -/
def State.relayRoster (s : State) (m : Member) (p : Bytes) : State :=
  let s := s.sendMember m 0x0200 p
  if leAt p 0x30 2 + 1 != leAt p 0x32 2 then s else
  let s := s.sendRoster m none false
  if m.state == 1 && bit (leAt p 0x14 4) 0 && !bit (leAt p 0x14 4) 1 then s.queueCmd opUNBYPASS m.pos else s

/-- ROSTER: a ring manager keeps what it says and sends it on to its recipient; one for the ring manager itself, at position 0, gives it its
trunk compensation (R528). Any other module takes it. -/
def State.takeRosterMsg (s : State) (p : Bytes) : State :=
  if s.mgr.plan.isNone then s.takeRoster p else
  let s := s.keepRoster p
  if leAt p 5 1 == 0 then { s with trd := { s.trd with arrival := leAt p 8 4, target := leAt p 12 4 } }
  else match s.memberAt (leAt p 4 1) (leAt p 5 1) with
    | none => s
    | some m => s.relayRoster m p

/-- FAILED: the entry reads FAILED; a ring manager relays it, and bypasses the position where it is on its ring (R549). -/
def State.takeFailed (s : State) (p : Bytes) : State :=
  let ring := leAt p 2 1
  let pos := leAt p 3 1
  let mark (l : List Member) : List Member := l.map fun (m : Member) => if m.ring == ring && m.pos == pos then { m with state := 4 } else m
  let s := { s with trd := { s.trd with members := mark s.trd.members } }
  match s.mgr.plan with
  | none => s
  | some pl =>
    let s := { s with mgr := { s.mgr with members := mark s.mgr.members } }
    let s := if ring == pl.ring then s.queueCmd opBYPASS pos else s
    s.sendWorkers 0x0202 p

/-- TAKEOVER: at a spare the event and what it names; a ring manager relays it to the spare that R549 chooses on
its ring. -/
def State.takeTakeover (s : State) (p : Bytes) : State :=
  let rank := leAt p 0 2
  match s.mgr.plan with
  | none =>
    let s := { s with mgr := { s.mgr with takeover := some (rank, leAt p 4 4, BitVec.ofNat 64 (leAt p 8 8)) } }
    if s.pagePresent pgMGR then s.raise pgMGR 1 rank else s
  | some pl =>
    match s.chooseSpare pl.ring with
    | some m => s.sendMember m 0x0203 p
    | none => s

/-- HEARTBEAT_TIMER (R545): every 1 ms a worker with its session open; during a sag too (R586). -/
def execHeartbeatTimer (s : State) : Host.Outcome State Fault Refusal :=
  .next (
    match s.mgrSession with
    | none => s
    | some i =>
      s.send i ⟨0x0201, 0, leBytes 8 s.trd.tpos ++ leBytes 8 s.jobPos ++ leBytes 8 s.commits ++ leBytes 1 s.job.state.code
        ++ leBytes 1 s.linkCode ++ zeros 6⟩)

/-- The selected FAILED entry becomes a spare in ABSENT (R552, R557); the table has changed, so the top manager sends it (R545). -/
def State.makeSpareEntry (s : State) : State :=
  match s.memberAt s.mgr.selRing s.mgr.selPos with
  | some m =>
    if m.state != 4 then s else
    let l := s.withMember m.ring m.pos fun x => { x with rank := 0xFFFF, spare := true, state := 0 }
    if (s.mgr.plan.map (·.top)) == some true then s.changeMembers l else { s with mgr := { s.mgr with members := l } }
  | none => s

/-- MAKE_SPARE (R552, R557). -/
def execMakeSpare (s : State) : Host.Outcome State Fault Refusal := .next s.makeSpareEntry

end Sys2Proof.Machine
end

