-- ==== Sys2Proof/Machine/Coll.lean ====
section
/-!
DEFINITION. Collectives (R448–R464, R501, R502): triggers, grants, the exchange of tile images between modules, the exact
reduction and FAST mode, results, errors, and gathers from the owner's side and the requester's.
-/
namespace Sys2Proof.Machine

/-! ### Records, groups and runs (R449–R452) -/

def CollRec.kind (r : CollRec) : Option CollKind := CollKind.ofCode r.kindCode
def CollRec.mode (r : CollRec) : Mode := if r.modeCode == 1 then .rtz else if r.modeCode == 2 then .stoch else .rne
def CollRec.reduces (r : CollRec) : Bool := r.kind == some .reduceScatter || r.kind == some .allReduce
/-- Tiles in a row of the tensor (R450). -/
def CollRec.across (r : CollRec) : Nat := (r.width + 63) / 64
/-- The participant whose chunk holds a tile. -/
def CollRec.owner (r : CollRec) (t : Nat) : Option Nat :=
  (r.group.find? fun c => decide (c.first ≤ t) && decide (t < c.first + c.count)).map (·.rank)
def CollRec.chunk (r : CollRec) (rank : Nat) : Chunk := (r.group.find? fun c => c.rank == rank).getD ⟨rank, 0, 0⟩
def Chunk.tiles (c : Chunk) : List Nat := (List.range c.count).map (· + c.first)

def State.collRec (s : State) (k : Nat) : Option CollRec := s.job.colls[k]?
def State.run (s : State) (k : Nat) : CollRun := s.job.runs.get CollRun.reset k
def State.setRun (s : State) (k : Nat) (x : CollRun) : State :=
  { s with job := { s.job with runs := s.job.runs.set CollRun.reset k x } }

/-- The record of a CR_ID in whose group a rank takes part. -/
def State.collOf (s : State) (id rank : Nat) : Option (Nat × CollRec) :=
  (s.job.colls.zipIdx.find? fun (r, _) => r.id == id && r.group.any fun c => c.rank == rank).map fun (r, k) => (k, r)

/-- Participants other than this module. -/
def State.others (s : State) (r : CollRec) : List Nat := (r.group.map (·.rank)).filter fun x => x != s.ownRank

/-! ### Messages to a peer (R448, R457, R501) -/

/-- A PEER session to a rank: the plane asked for, or the other one where none stands there (R448). -/
def State.peerSession (s : State) (rank plane : Nat) : Option Nat :=
  let able (kv : Nat × Session) : Bool :=
    kv.2.kind == 3 && kv.2.rank == rank && (kv.2.live || kv.2.state == .OG)
  match s.mrn.sessions.find? fun kv => able kv && kv.2.plane == plane with
  | some kv => some kv.1
  | none => (s.mrn.sessions.find? able).map (·.1)

/-- The address of a rank on a plane, from the membership table (R543): the spare's that took the rank over, not that of its FAILED entry
(R549). -/
def State.rankAddr (s : State) (rank plane : Nat) : Option (BitVec 128) :=
  (s.trd.members.find? fun m => m.rank == rank && !m.spare && m.state != 4).map fun m => if plane == 1 then m.addrB else m.addrA

/-- The module runs on both planes: it has ports 4–7, and not all four are off (R447). -/
def State.twoPlanes (s : State) : Bool := s.hasB && !((List.range 4).all fun i => (s.port (4 + i)).mode == 0)

/-- The planes on which this module and a peer speak: plane A alone where either runs single-plane, which of a peer its zero plane-B address
says (R447, R448, R543). -/
def State.planes (s : State) (rank : Nat) : List Nat :=
  if s.twoPlanes && (match s.rankAddr rank 1 with | some a => a != 0 | none => false) then [0, 1] else [0]

/-- The lower rank opens a PEER session on every plane where none stands (R448, R468). -/
def State.openPeer (s : State) (rank : Nat) : State :=
  if rank ≤ s.ownRank then s else
  (s.planes rank).foldl (fun s plane =>
    match s.rankAddr rank plane with
    | none => s
    | some a =>
      if s.mrn.sessions.any fun kv => kv.2.kind == 3 && kv.2.rank == rank && kv.2.plane == plane then s
      else s.openSession 3 plane a rank 0) s

/-- Sends a message to a peer; without a session it waits for one. -/
def State.sendPeer (s : State) (rank plane typ : Nat) (payload : Bytes) : State :=
  let m : Msg := ⟨typ, 0, payload⟩
  let plane := if s.twoPlanes then plane % 2 else 0
  match s.peerSession rank plane with
  | some i => s.send i m
  | none => { s with job := { s.job with unsent := s.job.unsent ++ [⟨rank, plane, m⟩] } }

/-- Messages that waited for a session to a rank leave; while the module is paused no new data leaves (R586). -/
def State.flushPeer (s : State) (rank : Nat) : State :=
  if s.paused then s else
  let (now, later) := s.job.unsent.partition fun u => u.rank == rank
  now.foldl (fun s u => s.sendPeer rank u.plane u.msg.typ u.msg.payload) { s with job := { s.job with unsent := later } }

/-- The bytes of the image at a device address, over the length that its descriptor gives (R73, R693). -/
def State.imageAt (s : State) (a : Nat) : Bytes :=
  let d := Desc.parse (s.loadNew a 64)
  s.loadNew a (d.length.getD 64)

/-- A reduction engine as a consumer of tiles: it counts its retries on the page of its quoin's module memory (R365, R367). -/
def Consumer.reduction (q : Nat) : Consumer := ⟨pgLPD q, 0x50, 1, 0x12, q⟩

/-- An image leaves in segments of up to 8,192 bytes (R501). -/
def State.sendImage (s : State) (rank id flags contrib inst tile : Nat) (img : Bytes) : State :=
  (List.range ((img.length + 8191) / 8192)).foldl (fun s j =>
    let seg := (img.drop (8192 * j)).take 8192
    s.sendPeer rank (tile % 2) 0x0400
      (leBytes 2 id ++ leBytes 2 flags ++ leBytes 1 contrib ++ zeros 3 ++ leBytes 8 inst ++ leBytes 4 tile
        ++ leBytes 4 (8192 * j) ++ leBytes 4 img.length ++ leBytes 2 seg.length ++ zeros 2 ++ seg)) s

/-- An image in memory is read and sent as stored (R453, R454, R464). -/
def State.sendFrom (s : State) (rank id flags contrib inst tile a : Nat) : State :=
  let img := s.imageAt a
  (s.demandRead a img.length).sendImage rank id flags contrib inst tile img

/-! ### The end of an instance (R452, R456, R467) -/

/-- Both engines note the instance that ended last. -/
def State.noteEnd (s : State) (id : Nat) (err : W16) : State :=
  { s with red := (s.red.set RedEngine.reset 0 ⟨id, err⟩).set RedEngine.reset 1 ⟨id, err⟩ }

/-- Both engines note an instance that ended with an error, and raise ABORT (R467). -/
def State.noteAbort (s : State) (id : Nat) (err : W16) : State :=
  ((s.noteEnd id err).raise (pgRED 0) 2 id).raise (pgRED 1) 2 id

/-- An instance ends with an error: the event, and ABORT to every other participant (R456). -/
def State.abortInst (s : State) (k : Nat) (r : CollRec) (code : W16) : State :=
  let s := s.noteAbort r.id code
  let inst := (s.run k).inst
  (s.others r).foldl (fun s p => s.sendPeer p 0 0x0406 (leBytes 2 r.id ++ leBytes 8 inst ++ leBytes 2 code.toNat)) s

/-- An instance ends with an error, over a tile where one failed its checks, and the job stops with it (R456). -/
def State.failTile (s : State) (k : Nat) (r : CollRec) (f : TileFail) : State := (s.abortInst k r f.code).stopUnitTile f r.station

def State.failColl (s : State) (k : Nat) (r : CollRec) (code : W16) : State := s.failTile k r (TileFail.ofCode code)

/-- An instance ends without error (R452): status record, completion knot, counters. -/
def State.finishColl (s : State) (k : Nat) (r : CollRec) : State :=
  let x := s.run k
  let rec_ := leBytes 8 x.inst ++ leBytes 2 (b2n r.fast + 2 * b2n x.saturated) ++ leBytes 2 x.retriesMax
    ++ leBytes 4 (sat32 x.drops) ++ leBytes 8 x.clipped ++ leBytes 8 x.vanished ++ zeros 32
  let s := s.devicePut r.stat rec_ none
  let s := (s.setRun k { x with active := false, opened := [], segs := [] }).noteEnd r.id 0
  let s := (s.count (pgRED 0) 6 1).count (pgRED 1) 6 1
  let s := if r.fast then (s.count (pgRED 0) 7 1).count (pgRED 1) 7 1 else s
  s.unitAdd r.doneKnot 1

/-! ### Checks on arrival (R455) -/

/-- A checked image: an element tile or a transfer tile. -/
inductive CollTile where
  | elements (t : Tile)
  | transfer (d : Desc) (h0 h1 : Option XfHalf)

def CollTile.desc : CollTile → Desc
  | .elements t => t.desc
  | .transfer d _ _ => d

/-- R86, with the collective's tensor, index and format at step 5; for an image of a SEND the index is not the tensor's. -/
def checkColl (r : CollRec) (fmt tile : Nat) (img : Bytes) : Except TileFail CollTile :=
  let accept (d : Desc) : Option W16 :=
    let off := r.kind == some .send || r.kind == some .recv
    if d.format != fmt || d.tensor != r.tensor || (!off && d.row * r.across + d.col != tile) then some 0x0520 else none
  match checkHead img with
  | .error f => .error f
  | .ok d =>
    match accept d with
    | some c => .error (d.fail c 0)
    | none =>
      if fmt == 0x30 then
        (match checkXf img none with
         | .error f => .error f
         | .ok (d, hs) => .ok (.transfer d (hs.getD 0 none) (hs.getD 1 none)))
      else
        (match checkTile img accept with
         | .error f => .error f
         | .ok t => .ok (.elements t))

/-! ### The reduction (R457–R463) -/

/-- Slots of an engine that are in use (R462, R467). -/
def State.slotsOpen (s : State) (q : Nat) : Nat :=
  s.job.runs.foldl (fun n kx => n + (kx.2.opened.filter fun t => t.tile % 2 == q).length) 0

def CollRec.slots (r : CollRec) : Nat := if r.fast then 896 else 448

def RedTile.open (r : CollRec) (t : Nat) : RedTile :=
  let p : PlaneSt := { PlaneSt.free with isOpen := true, anchor := r.anchor }
  ⟨t, p, p, [], [], 0, 0⟩

/-- The exact value of an element as a reduction reads it. -/
def Tile.addend (t : Tile) (i : Nat) : Dy :=
  let bits := BitVec.ofNat 32 (t.code (payPos t.desc.axis i))
  if t.fmt == .f32 && !(f32Finite bits) then ⟨(Config.reduceOpen bits).1, (Config.reduceOpen bits).2⟩ else t.value i

/-- One half of a contribution in element form: 2,048 terms and one pass (R458). -/
def PlaneSt.addElements (p : PlaneSt) (t : Tile) (half : Nat) : PlaneSt :=
  let q := (List.range 2048).foldl (fun (p : PlaneSt) i => p.addTerm (i / 64) (i % 64) (t.addend (2048 * half + i))) p
  { q with passes := q.passes + 1 }

/-- One half of a contribution in transfer form, with its drops and passes (R135, R458). -/
def PlaneSt.addXf (p : PlaneSt) (h : Option XfHalf) : PlaneSt :=
  match h with
  | none => { p with passes := p.passes + 1 }
  | some h =>
    let q := p.addTerms (h.acc.zipIdx.map fun (v, i) => ⟨i / 64, i % 64, ⟨v, h.anchor - 160⟩⟩)
    { q with drops := sat32 (q.drops + h.drops), passes := q.passes + h.passes + 1 }

/-- An element decoded to binary32 and added, each with its rounding (R235, R463). That a FAST tile's CLIPPED and VANISHED count these
roundings beside the last one is the model's reading (DEDUCED, log entry 115). -/
def RedTile.addFast (x : RedTile) (i : Nat) (v : Dy) : RedTile :=
  let a := roundF32 v .rne 0
  let b := roundF32 ((f32Val (x.fast.get 0 i)).add (f32Val a.1)) .rne 0
  { x with fast := x.fast.set 0 i b.1, clipped := x.clipped + b2n (a.2 == .clip) + b2n (b.2 == .clip),
           vanished := x.vanished + b2n (a.2 == .vanish) + b2n (b.2 == .vanish) }

/-- A contribution's terms (R458), or its FAST additions in binary32, in the order of arrival (R463). -/
def RedTile.add (x : RedTile) (fast : Bool) (c : CollTile) : RedTile :=
  match c with
  | .transfer _ h0 h1 => { x with h0 := x.h0.addXf h0, h1 := x.h1.addXf h1 }
  | .elements t =>
    if fast then (List.range 4096).foldl (fun (x : RedTile) i => x.addFast i (t.addend i)) x
    else { x with h0 := x.h0.addElements t 0, h1 := x.h1.addElements t 1 }

def RedTile.overflowed (x : RedTile) : Bool := x.h0.overflowed || x.h1.overflowed

/-- The value of an element of the tile. -/
def RedTile.value (x : RedTile) (fast : Bool) (i : Nat) : Dy :=
  if fast then f32Val (x.fast.get 0 i)
  else
    let p := if i / 2048 == 0 then x.h0 else x.h1
    ⟨p.acc.get 0 (i % 2048), p.anchor - 160⟩

/-- The result's image, with its clipped and vanished elements (R460). -/
def RedTile.round (x : RedTile) (r : CollRec) (sd : DescSeed) (word : Nat → Nat) : Bytes × Nat × Nat :=
  match Fmt.ofCode r.outFmt with
  | none => (buildXf sd (some x.h0.toXf) (some x.h1.toXf), 0, 0)
  | some f =>
    let cfg : EncCfg := { fmt := f, book := [], mode := r.mode, current := true, trExp := 0, outEn := false, outShift := 0,
                          recompute := false, spillMax := 0 }
    let start := Enc.start cfg 0 false
    let val (q : Nat) : Dy := x.value r.fast q
    let e := if f == .f32 then encodeF32 0 val r.mode word start (List.range 4096)
      else encodeBlocks cfg 0 val word start (List.range 128)
    (e.image f 0 sd, x.clipped + e.counts.clipped, x.vanished + e.counts.vanished)

/-- The seed of a result's descriptor. -/
def CollRec.seed (r : CollRec) (t : Nat) : DescSeed :=
  let g := Config.resultGen r.tensor t
  { tensor := r.tensor, row := t / r.across, col := t % r.across, gen := g.getD 0, genValid := g.isSome, book := [] }

/-- The words of a result's STOCH draws (R250, R460). The serial of a result whose generation is not held is a free value, since R246 names a stop
for instructions only (log entry 139). -/
def State.collWords (s : State) (r : CollRec) (sd : DescSeed) : Except W16 (Nat → Nat) :=
  if r.mode != .stoch then .ok fun _ => 0 else
  if r.width == 0 then .error 0x010D else
  match s.seedKey r.slot with
  | .error c => .error c
  | .ok key => .ok (roundWord key r.width sd.tensor sd.row sd.col (if !sd.genValid then 0 else if s.genHeld sd.gen then s.serialOf sd.gen else Config.unheldSerial sd.gen % 2 ^ 24))

/-! ### Where images stand (R451) -/

/-- The address of the image that this module sends for an index: a contribution, its own chunk, an image of a SEND, or a rounded
result of an ALL_REDUCE. -/
def State.sourceOf (s : State) (r : CollRec) (contrib t : Nat) : Nat :=
  match r.kind with
  | some .allGather => r.src + (t - (r.chunk s.ownRank).first) * r.srcStride
  | some .send => r.src + 64 + t * r.srcStride
  | some .allReduce => if r.owner t == some s.ownRank then r.dst + t * r.dstStride else r.src + (contrib * r.tiles + t) * r.srcStride
  | _ => r.src + (contrib * r.tiles + t) * r.srcStride

/-- The address where an arriving or reduced image is written. -/
def State.destOf (s : State) (r : CollRec) (t : Nat) : Nat :=
  match r.kind with
  | some .reduceScatter => r.dst + (t - (r.chunk s.ownRank).first) * r.dstStride
  | some .recv => r.dst + 64 + t * r.dstStride
  | _ => r.dst + t * r.dstStride

/-- An image written with its zero fill (R73). -/
def State.putImage (s : State) (a : Nat) (img : Bytes) : State :=
  s.devicePut a (img ++ zeros (roundUp img.length 64 - img.length)) none

/-- The image that a SEND reads lies where a station may read (R292, R543, R589); at load only its header could be looked at. -/
def State.sendRefused (s : State) (r : CollRec) (t : Nat) : Option W16 :=
  let a := s.sourceOf r 0 t
  if r.kind == some .send then (s.deviceCheck a 64 false).or (s.deviceCheck a (s.imageAt a).length false) else none

/-- Images of a SEND leave, as far as they lie where they may. -/
def State.sendImages (s : State) (k : Nat) (r : CollRec) (rank inst contrib : Nat) (tiles : List Nat) : State :=
  tiles.foldl (fun s t =>
    if !s.jobLive then s
    else match s.sendRefused r t with
      | some c => s.failColl k r c
      | none => s.sendFrom rank r.id 0 contrib inst t (s.sourceOf r contrib t)) s

/-- Every contribution of a tile to its owner, for an instance. -/
def State.sendContribs (s : State) (r : CollRec) (inst t : Nat) : State :=
  match r.owner t with
  | none => s
  | some o => (List.range r.mult).foldl (fun s m =>
      s.sendFrom o r.id 0 m inst t (r.src + (m * r.tiles + t) * r.srcStride)) s

/-! ### Progress of an instance -/

def State.setTile (s : State) (k : Nat) (x : RedTile) : State :=
  let u := s.run k
  s.setRun k { u with opened := u.opened.map fun y => if y.tile == x.tile then x else y }

/-- A contribution joins its tile (R458): the pass limit, the terms, the counter. -/
def State.addContrib (s : State) (k : Nat) (r : CollRec) (x : RedTile) (rank m : Nat) (c : CollTile) : State :=
  let y := { x.add r.fast c with got := (rank, m) :: x.got }
  if !r.fast && (decide (passLimit < y.h0.passes) || decide (passLimit < y.h1.passes)) then s.failColl k r 0x0209
  else (s.setTile k y).count (pgRED (x.tile % 2)) 0 1

/-- The module's own contributions of a tile, with the checks of a consumer of memory (R364–R366, R455): an image that arrives with UNCORR
or fails its checksum is read once more, and reads the same. -/
def State.addOwn (s : State) (k : Nat) (r : CollRec) (t : Nat) : State :=
  (List.range r.mult).foldl (fun s m =>
    if !s.jobLive then s else
    match (s.run k).opened.find? fun y => y.tile == t with
    | none => s
    | some x =>
      let a := r.src + (m * r.tiles + t) * r.srcStride
      let img := s.imageAt a
      let bad := s.uncorr a img.length
      let s := s.demandRead a img.length
      let again (s : State) : State := let (f, s) := s.refetch (Consumer.reduction (t % 2)) a img; s.failTile k r f
      if bad then again s else
      match checkColl r r.inFmt t img with
      | .error f => if f.code == 0x0301 then again s else s.failTile k r f
      | .ok ct => s.addContrib k r x s.ownRank m ct) s

/-- The tile goes to the other participants and into memory, and its slot is free (R451, R460). -/
def State.writeResult (s : State) (k : Nat) (r : CollRec) (x : RedTile) (sat : Bool) (lost : Nat) : State :=
  let sd := r.seed x.tile
  match s.collWords r sd with
  | .error c => s.failColl k r c
  | .ok word =>
    let (img, clipped, vanished) := x.round r sd word
    let q := pgRED (x.tile % 2)
    let drops := if r.fast then 0 else x.h0.drops + x.h1.drops
    let s := (s.putImage (s.destOf r x.tile) img).count q 1 1
    let s := if drops == 0 then s else s.count q 4 drops
    let s := if sat then (s.count q 3 1).raise q 1 r.id else s
    let s := if r.kind == some .allReduce then
        (s.others r).foldl (fun s p => s.sendImage p r.id 0 0 (s.run k).inst x.tile img) s
      else s
    let u := s.run k
    s.setRun k { u with
      opened := u.opened.filter (fun y => y.tile != x.tile), done := x.tile :: u.done,
      retriesMax := max u.retriesMax x.h0.retries, saturated := u.saturated || sat, drops := sat32 (u.drops + drops),
      clipped := u.clipped + clipped + lost, vanished := u.vanished + vanished }

/-- The overflow of a tile that has every contribution (R459). -/
def State.judgeTile (s : State) (k : Nat) (r : CollRec) (x : RedTile) : State :=
  let q := pgRED (x.tile % 2)
  if r.fast || !x.overflowed then s.writeResult k r x false 0
  else if x.h0.canRetry then
    let s := s.setTile k { x with h0 := x.h0.retried, h1 := x.h1.retried, got := [] }
    let s := (s.count q 2 1).raise q 0 r.id
    let s := (s.others r).foldl (fun s p =>
      s.sendPeer p (x.tile % 2) 0x0403 (leBytes 2 r.id ++ leBytes 8 (s.run k).inst ++ leBytes 4 x.tile)) s
    s.addOwn k r x.tile
  else if r.outFmt == 0x30 then s.failColl k r 0x0209
  else
    let (p0, c0) := x.h0.saturated
    let (p1, c1) := x.h1.saturated
    s.writeResult k r { x with h0 := p0, h1 := p1 } true (c0.length + c1.length + x.h0.ovfTerms + x.h1.ovfTerms)

/-- The next tile of the own chunk that a slot is free for, in ascending order (R462). -/
def State.nextGrant (s : State) (k : Nat) (r : CollRec) : Option Nat :=
  let u := s.run k
  match (r.chunk s.ownRank).tiles.find? fun t => !(u.done.contains t) && !(u.opened.any fun y => y.tile == t) with
  | none => none
  | some t => if s.slotsOpen (t % 2) < r.slots then some t else none

/-- What an instance still waits for: results or gathered tiles to write, and tiles to send. -/
def State.collDone (s : State) (k : Nat) (r : CollRec) : Bool :=
  let u := s.run k
  let foreign : List Nat := (List.range r.tiles).filter fun t => r.owner t != some s.ownRank
  match r.kind with
  | some .reduceScatter =>
    (r.chunk s.ownRank).tiles.all (fun t => u.done.contains t) && foreign.all fun t => u.sent.contains t
  | some .allReduce => (List.range r.tiles).all (fun t => u.done.contains t) && foreign.all fun t => u.sent.contains t
  | some .allGather => (List.range r.tiles).all fun t => u.done.contains t
  | some .send => u.count.isSome
  | some .recv => (match u.count with
    | some n => (List.range n).all fun t => u.done.contains t
    | none => false)
  | none => false

/-- An instance goes on as far as it can: tiles with every contribution are judged, free slots are granted, and what is complete
ends. `fuel` bounds the tiles and retries. -/
def State.advance (k : Nat) (r : CollRec) : Nat → State → State
  | 0, s => s
  | fuel + 1, s =>
    let u := s.run k
    if !s.jobLive || !u.active then s else
    match u.opened.find? fun x => decide (r.group.length * r.mult ≤ x.got.length) with
    | some x => State.advance k r fuel (s.judgeTile k r x)
    | none =>
      match if r.reduces then s.nextGrant k r else none with
      | some t =>
        let s := s.setRun k { u with opened := u.opened ++ [RedTile.open r t] }
        let s := (s.others r).foldl (fun s p =>
          s.sendPeer p (t % 2) 0x0402 (leBytes 2 r.id ++ leBytes 8 u.inst ++ leBytes 4 t ++ leBytes 4 1)) s
        State.advance k r fuel (s.addOwn k r t)
      | none => if s.collDone k r then s.finishColl k r else s

def State.advanceOne (s : State) (k : Nat) (r : CollRec) : State := State.advance k r (8 * (r.chunk s.ownRank).count + 8) s

/-- The records other than `k` whose reductions run and may be waiting for a slot that frees (R462). -/
def State.otherRuns (s : State) (k : Nat) : List (Nat × CollRec) :=
  (s.job.colls.zipIdx.filter fun (r, j) => j != k && r.reduces && (s.run j).active).map fun (r, j) => (j, r)

/-- A record goes on, and then those that wait for the slots which it may have freed. -/
def State.progress (s : State) (k : Nat) (r : CollRec) : State :=
  (s.otherRuns k).foldl (fun (s : State) (j, q) => s.advanceOne j q) (s.advanceOne k r)

/-! ### Arriving images (R455, R502) -/

/-- A segment's header (R501). -/
structure Seg where
  id : Nat
  gather : Bool
  contrib : Nat
  inst : Nat
  tile : Nat
  off : Nat
  len : Nat
  data : Bytes

def Seg.parse (b : Bytes) : Seg :=
  { id := leAt b 0 2, gather := bit (leAt b 2 2) 0, contrib := leAt b 4 1, inst := leAt b 8 8, tile := leAt b 0x10 4,
    off := leAt b 0x14 4, len := leAt b 0x18 4, data := (b.drop 32).take (leAt b 0x1C 2) }

/-- Outcome of placing a segment: conflicting lengths, an image not yet whole, or the whole image. -/
inductive Placed where
  | conflict
  | part (l : List SegImg)
  | whole (img : Bytes) (l : List SegImg)

/-- A segment is placed by its offset; bytes held already are overwritten (R502). -/
def placeSeg (l : List SegImg) (rank : Nat) (g : Seg) : Placed :=
  let same (x : SegImg) : Bool := x.rank == rank && x.contrib == g.contrib && x.tile == g.tile
  let x := (l.find? same).getD ⟨rank, g.contrib, g.tile, g.len, [], []⟩
  let rest := l.filter fun y => !same y
  if x.len != g.len then .conflict
  else if decide (g.len < g.off + g.data.length) || g.off % 8192 != 0 then .part l
  else
    let had := ((x.got.find? fun o => o.1 == g.off).map (·.2)).getD 0
    let y := { x with bytes := fitBytes g.len (patch x.bytes g.off g.data),
                      got := (g.off, max had g.data.length) :: x.got.filter fun o => o.1 != g.off }
    if y.got.foldl (fun n o => n + o.2) 0 < g.len then .part (rest ++ [y]) else .whole y.bytes rest

/-- The index lies in the collective, and the image is one that its sender may send (R455). -/
def State.segFits (s : State) (r : CollRec) (u : CollRun) (rank : Nat) (g : Seg) : Bool :=
  match r.kind with
  | some .reduceScatter => r.owner g.tile == some s.ownRank && decide (g.contrib < r.mult)
  | some .allReduce => decide (g.tile < r.tiles) && (r.owner g.tile == some s.ownRank || r.owner g.tile == some rank)
      && decide (g.contrib < r.mult)
  | some .allGather => r.owner g.tile == some rank
  | some .recv => (match u.count with | some n => decide (g.tile < n) | none => true)
  | _ => false

/-- The first failure of an image that came over the network: RESENDS of its engine, and TILE_RETRY of the quoin where the engine lies
(R365, R455). -/
def State.firstFailure (s : State) (tile : Nat) (f : TileFail) : State :=
  let c := Consumer.reduction (tile % 2)
  ((s.count (pgRED (tile % 2)) 5 1).count c.page c.key 1).raise c.page c.evt f.tensor

/-- What R367 records of the second failure of such an image; it has no device address (log entry 116). -/
def TileFail.arrived (f : TileFail) (img : Bytes) (tile : Nat) : TileFail :=
  f.noteCrc img 0 (Consumer.reduction (tile % 2)).unit (tile % 2) none

/-- A whole image: checked, asked for once more after a first checksum failure, then reduced or written (R455). -/
def State.takeImage (s : State) (k : Nat) (r : CollRec) (rank : Nat) (g : Seg) (img : Bytes) : State :=
  let contribution := r.reduces && r.owner g.tile == some s.ownRank
  match checkColl r (if r.reduces && !contribution then r.outFmt else r.inFmt) g.tile img with
  | .error f =>
    let u := s.run k
    if f.code == 0x0301 && !(u.resent.contains (rank, g.contrib, g.tile)) then
      let s := (s.setRun k { u with resent := (rank, g.contrib, g.tile) :: u.resent }).firstFailure g.tile f
      s.sendPeer rank (g.tile % 2) 0x0401 (leBytes 2 r.id ++ leBytes 8 g.inst ++ leBytes 4 g.tile ++ leBytes 1 g.contrib)
    else s.failTile k r (f.arrived img g.tile)
  | .ok ct =>
    if contribution then
      match (s.run k).opened.find? fun y => y.tile == g.tile with
      | none => s
      | some x => (s.addContrib k r x rank g.contrib ct).progress k r
    else
      -- at load only the header of a RECV could be looked at (R543, R589)
      match if r.kind == some .recv then s.deviceCheck (s.destOf r g.tile) img.length true else none with
      | some c => s.failColl k r c
      | none =>
        let s := s.putImage (s.destOf r g.tile) img
        let u := s.run k
        (s.setRun k { u with done := g.tile :: u.done }).progress k r

/-- A segment names another image length than an earlier one of its tile (R502). -/
def CollRun.lenDiffers (u : CollRun) (rank : Nat) (g : Seg) : Bool :=
  u.lens.any fun l => l.1 == rank && l.2.1 == g.contrib && l.2.2.1 == g.tile && l.2.2.2 != g.len

/-- A segment of the running instance. -/
def State.runSeg (s : State) (k : Nat) (r : CollRec) (rank : Nat) (g : Seg) : State :=
  let u := s.run k
  let held := u.done.contains g.tile
    || u.opened.any (fun x => x.tile == g.tile && x.got.contains (rank, g.contrib))
  if !(s.segFits r u rank g) || u.lenDiffers rank g then s.failColl k r 0x0520
  else if held then s
  else
    let u := { u with lens := if u.lens.contains (rank, g.contrib, g.tile, g.len) then u.lens else (rank, g.contrib, g.tile, g.len) :: u.lens }
    match placeSeg u.segs rank g with
    | .conflict => s.failColl k r 0x0520
    | .part l => s.setRun k { u with segs := l }
    | .whole img l => (s.setRun k { u with segs := l }).takeImage k r rank g img

/-! ### The other messages of a running instance -/

/-- GRANT (R462): the granted tiles' contributions leave. -/
def State.runGrant (s : State) (k : Nat) (r : CollRec) (rank first count : Nat) : State :=
  let s := (List.range (min count r.tiles)).foldl (fun s j =>
    let t := first + j
    let u := s.run k
    if r.owner t != some rank || u.sent.contains t then s
    else (s.sendContribs r u.inst t).setRun k { u with sent := t :: u.sent }) s
  s.progress k r

/-- COUNT (R451): the number of images of a SEND, written at CR_DST. -/
def State.runCount (s : State) (k : Nat) (r : CollRec) (n : Nat) : State :=
  if 65535 < n then s.failColl k r 0x0520 else
  let u := s.run k
  let s := (s.devicePut r.dst (leBytes 4 n) none).setRun k { u with count := some n }
  if u.done.any fun t => decide (n ≤ t) then s.failColl k r 0x0520 else s.progress k r

/-- A message of the running instance, by its type. -/
def State.runMsg (s : State) (k : Nat) (r : CollRec) (m : EarlyMsg) : State :=
  if !s.jobLive || !(s.run k).active then s
  else if m.typ == 0x0400 then s.runSeg k r m.rank (Seg.parse m.payload)
  else if m.typ == 0x0402 then s.runGrant k r m.rank (leAt m.payload 10 4) (leAt m.payload 14 4)
  else if m.typ == 0x0407 then s.runCount k r (leAt m.payload 10 4)
  else s

/-- A message of an instance: of the running one it acts, of a later one it waits, of an earlier one it is discarded (R502). -/
def State.collMsg (s : State) (rank typ id inst : Nat) (payload : Bytes) : State :=
  if !s.jobLive then s else
  match s.collOf id rank with
  | none => s
  | some (k, r) =>
    let u := s.run k
    if u.inst < inst then s.setRun k { u with early := u.early ++ [⟨rank, typ, payload⟩] }
    else if u.inst == inst && u.active then s.runMsg k r ⟨rank, typ, payload⟩ else s

/-- The instance number that an early message names. -/
def EarlyMsg.inst (m : EarlyMsg) : Nat := if m.typ == 0x0400 then leAt m.payload 8 8 else leAt m.payload 2 8

/-! ### Gathers (R415, R416, R464) -/

/-- The stored size of a tile of a working copy in a generation area. -/
def TensorEntry.stride (e : TensorEntry) : Nat :=
  match Fmt.ofCode e.fwdFmt with
  | some f => roundUp (0x1C0 + f.payloadLen) 64
  | none => 64

/-- The slot that answers for a generation number: BUILT, CURRENT or PREVIOUS (R415). -/
def State.gatherSlot (s : State) (gen : Nat) : Option Nat :=
  (List.range 3).find? fun j =>
    (s.slotState j == 2 || s.slotState j == 3 || s.slotState j == 4) && s.slotSerial j % 65536 == gen

/-- Sends the tiles of a gather as stored; the generation is pinned while the request is served (R415, R464). -/
def State.serveGather (s : State) (g : GatherServe) (tiles : List Nat) : State :=
  let entry : Option TensorEntry := match s.job.mapping with
    | some m => m.tensors.find? fun e => e.tensor == g.tensor
    | none => none
  match s.gatherSlot g.gen, s.genKnot, s.job.mapping, entry with
  | some j, some b, some m, some e =>
    let s := s.knotWrite (b + j) 0 1 unitReq
    let s : State := tiles.foldl (fun (s : State) t =>
      s.sendFrom g.rank 0 1 0 g.id t (m.areas.getD j 0 + e.fwdOff + t * e.stride)) s
    s.knotWrite (b + j) 0 0xFFFFFFFFFFFFFFFF unitReq
  | _, _, _, _ => s.sendPeer g.rank 0 0x0405 (leBytes 8 g.id)

def State.putGather (s : State) (g : Gather) : State :=
  { s with job := { s.job with gathers := s.job.gathers.map fun x => if x.id == g.id then g else x } }

/-- A station's gather leaves (R403, R415): the request holds a pin on the module's slot of the generation as long as its answer is
outstanding, and GATHER_REQ goes to the owner. Request ids count from 1 in each job, and where no slot of the module holds the generation
the request holds no pin (both DESIGN CHOICE, log entry 58). -/
def State.issueGather (s : State) (g : GatherIssue) : State :=
  if !s.jobLive || s.paused then s else
  let pin := match s.gatherSlot g.gen, s.genKnot with
    | some j, some b => some (b + j)
    | _, _ => none
  let entry := s.job.mapping.bind fun m => m.tensors.find? fun e => e.tensor == g.tensor
  let width := ((s.station g.station).bind fun t => t.img.tensors.find g.tensor).getD 0
  let id := s.job.gatherSeq + 1
  let x : Gather := { id := id, owner := g.owner, tensor := g.tensor, gen := g.gen, width := width,
                      format := (entry.map (·.fwdFmt)).getD 0, due := g.tiles, knot := g.knot, pin := pin, station := g.station,
                      segs := [], resent := [] }
  let s := match pin with | some k => s.knotWrite k 0 1 unitReq | none => s
  let s := { s with job := { s.job with gathers := s.job.gathers ++ [x], gatherSeq := id } }
  (s.openPeer g.owner).sendPeer g.owner 0 0x0404
    (leBytes 8 id ++ leBytes 4 g.tensor ++ leBytes 2 g.gen ++ g.tiles.flatMap fun t => leBytes 4 t.1)

/-- A gather is over: its pin is released (R403). -/
def State.endGather (s : State) (x : Gather) : State :=
  let s := { s with job := { s.job with gathers := s.job.gathers.filter fun y => y.id != x.id } }
  match x.pin with | some k => s.knotWrite k 0 0xFFFFFFFFFFFFFFFF unitReq | none => s

/-- Step 5 of the checks at use for a gathered tile (R455): the tensor, the index asked for and the format. -/
def Gather.accept (x : Gather) (tile : Nat) (d : Desc) : Option W16 :=
  if d.tensor != x.tensor || d.row * ((x.width + 63) / 64) + d.col != tile || d.format != x.format then some 0x0520 else none

/-- A segment that answers a gather of this module (R416, R464). -/
def State.gatherSeg (s : State) (rank : Nat) (g : Seg) : State :=
  match s.job.gathers.find? fun x => x.id == g.inst && x.owner == rank with
  | none => s
  | some x =>
    match x.due.find? fun d => d.1 == g.tile with
    | none => s
    | some (_, a) =>
      match placeSeg x.segs rank g with
      | .conflict => s.stopUnit 0x0520 x.station
      | .part l => s.putGather { x with segs := l }
      | .whole img l =>
        let s := s.putGather { x with segs := l }
        match checkTile img (x.accept g.tile) with
        | .error f =>
          if f.code == 0x0301 && !(x.resent.contains g.tile) then
            let s := (s.putGather { x with segs := l, resent := g.tile :: x.resent }).firstFailure g.tile f
            s.sendPeer rank (g.tile % 2) 0x0401 (leBytes 2 0 ++ leBytes 8 x.id ++ leBytes 4 g.tile ++ leBytes 1 0)
          else s.stopUnitTile (f.arrived img g.tile) x.station
        | .ok t =>
          if !t.desc.genValid || t.desc.gen != x.gen then s.stopUnitTile (t.desc.fail 0x0415 0) x.station
          else match s.deviceCheck a img.length true with
          | some code => s.stopUnit code x.station
          | none =>
            let due := x.due.filter fun d => d.1 != g.tile
            let s := s.putImage a img
            let s := if due.isEmpty then s.endGather x else s.putGather { x with segs := l, due := due }
            s.unitAdd x.knot 1

/-! ### Delivered messages -/

def State.takeSeg (s : State) (i : Nat) (p : Bytes) : State :=
  let g := Seg.parse p
  let rank := (s.session i).rank
  if g.gather then (if s.jobLive then s.gatherSeg rank g else s) else s.collMsg rank 0x0400 g.id g.inst p

def State.takeGrant (s : State) (i : Nat) (p : Bytes) : State :=
  s.collMsg (s.session i).rank 0x0402 (leAt p 0 2) (leAt p 2 8) p

def State.takeCount (s : State) (i : Nat) (p : Bytes) : State :=
  s.collMsg (s.session i).rank 0x0407 (leAt p 0 2) (leAt p 2 8) p

/-- An instance that has started here. -/
def State.startedInst (s : State) (k inst : Nat) : Bool := decide (0 < inst) && decide (inst ≤ (s.run k).inst)

/-- TILE_RESEND (R453, R455): the image is read and sent again. -/
def State.takeResend (s : State) (i : Nat) (p : Bytes) : State :=
  let rank := (s.session i).rank
  let id := leAt p 0 2
  let inst := leAt p 2 8
  let t := leAt p 10 4
  let m := leAt p 14 1
  if !s.jobLive then s
  else match s.collOf id rank with
    | some (k, r) =>
      if !(s.startedInst k inst) || !(decide (m < r.mult)) then s
      else if r.kind == some .send then s.sendImages k r rank inst m [t]
      else s.sendFrom rank r.id 0 m inst t (s.sourceOf r m t)
    | none =>
      match if id == 0 then s.job.served.find? (fun g => g.rank == rank && g.id == inst) else none with
      | some g => s.serveGather g [t]
      | none => s

/-- CONTRIB_RETRY (R459): every contribution of the tile is read and sent again, for the instance named. -/
def State.takeRetry (s : State) (i : Nat) (p : Bytes) : State :=
  match s.collOf (leAt p 0 2) (s.session i).rank with
  | some (k, r) => if s.jobLive && s.startedInst k (leAt p 2 8) then s.sendContribs r (leAt p 2 8) (leAt p 10 4) else s
  | none => s

/-- GATHER_REQ (R415). -/
def State.takeGatherReq (s : State) (i : Nat) (p : Bytes) : State :=
  let g : GatherServe := ⟨(s.session i).rank, leAt p 0 8, leAt p 8 4, leAt p 12 2⟩
  let tiles := (List.range ((p.length - 14) / 4)).map fun j => leAt p (14 + 4 * j) 4
  if !s.jobLive then s else
  let keep := s.job.served.filter fun x => !(x.rank == g.rank && x.id == g.id)
  State.serveGather { s with job := { s.job with served := keep ++ [g] } } g tiles

/-- VERSION_GONE (R403, R415): the completion knot advances by 2^32, and the request's pin is released. -/
def State.takeGone (s : State) (i : Nat) (p : Bytes) : State :=
  match s.job.gathers.find? fun x => x.id == leAt p 0 8 && x.owner == (s.session i).rank with
  | none => s
  | some x =>
    if !s.jobLive then s else
    (s.endGather x).unitAdd x.knot 0x100000000

/-- ABORT (R456, R512): the job stops, or the ABORT is counted where it has stopped already. -/
def State.takeAbort (s : State) (i : Nat) (p : Bytes) : State :=
  if !s.jobLive then s.count (pgMRN (s.session i).engine) 17 1 else
  match s.collOf (leAt p 0 2) (s.session i).rank with
  | none => s
  | some (_, r) => (s.noteAbort r.id 0x0523).stopUnit 0x0523 r.station

/-! ### The rows -/

/-- The work of an instance at its start, by the kind (R451). -/
def State.startKind (s : State) (k : Nat) (r : CollRec) : State :=
  match r.kind with
  | some .allGather =>
    (r.chunk s.ownRank).tiles.foldl (fun s t =>
      let img := s.imageAt (s.sourceOf r 0 t)
      let s := s.demandRead (s.sourceOf r 0 t) img.length
      let s := s.putImage (s.destOf r t) img
      let s := (s.others r).foldl (fun s p => s.sendImage p r.id 0 0 (s.run k).inst t img) s
      let u := s.run k
      s.setRun k { u with done := t :: u.done }) s
  | some .send =>
    let s := s.demandRead r.src 64
    let n := leNat (s.loadNew r.src 4)
    if 65535 < n then s.failColl k r 0x0520 else
    let s := (s.others r).foldl (fun s p =>
      let s := s.sendPeer p 0 0x0407 (leBytes 2 r.id ++ leBytes 8 (s.run k).inst ++ leBytes 4 n)
      s.sendImages k r p (s.run k).inst 0 (List.range n)) s
    if !s.jobLive then s else
    let u := s.run k
    s.setRun k { u with count := some n }
  | _ => s

/-- The trigger knot has reached the next instance's value, modulo 2^64 (R452). -/
def State.collTriggered (s : State) (r : CollRec) (n : Nat) : Bool :=
  decide (((s.knot r.trigKnot).value - BitVec.ofNat 64 n * r.trigInc).toNat < 2 ^ 63)

/-- COLLECTIVE_TRIGGER (R452): the next instance of a record starts, once the one before has ended. -/
def execCollectiveTrigger (rec : Nat) (s : State) : Host.Outcome State Fault Refusal :=
  .next (
    match s.collRec rec with
    | none => s
    | some r =>
      let u := s.run rec
      if !s.jobLive || s.paused || u.active || !(s.collTriggered r (u.inst + 1)) then s else
      let (now, later) := u.early.partition fun m => m.inst == u.inst + 1
      let s := (s.others r).foldl State.openPeer s
      let s := s.setRun rec { CollRun.reset with inst := u.inst + 1, active := true, early := later }
      let s := (s.startKind rec r).progress rec r
      now.foldl (fun s m => s.runMsg rec r m) s)

/-- COLLECTIVE_TIMEOUT (R456). -/
def execCollectiveTimeout (rec : Nat) (s : State) : Host.Outcome State Fault Refusal :=
  .next (
    match s.collRec rec with
    | none => s
    | some r => if s.jobLive && !s.paused && (s.run rec).active then s.failColl rec r 0x0521 else s)

end Sys2Proof.Machine
end

