-- ==== Sys2Proof/Machine/Fail.lean ====
section
/-!
DEFINITION. What the failure of a session (A11) does to its users (R448, R456, R489, R507, R511, R548), and the sessions that a roster or a
FAILED notice ends (E18, R549).
-/
namespace Sys2Proof.Machine

/-- A MEMBERSHIP session that a manager serves has failed (R548): the top manager declares its rank failed, and a ring manager
reports it upward. A ring manager lost at the top manager holds the job. -/
def State.memberLost (s : State) (x : Session) : State :=
  match s.mgr.plan with
  | none => s
  | some pl =>
    match s.sessionMember x with
    | none => if pl.top && decide (0xFF80 ≤ x.rank) && x.rank != 0xFFFF then s.holdJob 0x050C else s
    | some m =>
      if pl.top then s.declareFailed m 0x050C
      else match s.topSession with
        | some i => s.send i ⟨0x0204, 0, patch (statusBytes 4 0x050C 0 s.jobPos) 2 (leBytes 1 m.ring ++ leBytes 1 m.pos)⟩
        | none => s

/-- The instances that run with a participant. -/
def State.instancesWith (s : State) (rank : Nat) : List (Nat × CollRec) :=
  (s.job.colls.zipIdx.filter fun (r, k) => (s.run k).active && r.group.any fun c => c.rank == rank).map fun (r, k) => (k, r)

/-- A PEER session has failed: what is not acknowledged goes out on the other plane's session, else every instance with the rank ends with
PEER_LOST, and the job stops (R448, R456). -/
def State.peerLost (s : State) (i : Nat) (x : Session) : State :=
  let other := s.mrn.sessions.find? fun kv =>
    kv.1 != i && kv.2.kind == 3 && kv.2.rank == x.rank && (kv.2.live || kv.2.state == .OG)
  match other with
  | some kv => ((x.out.map (·.msg)) ++ x.queued).foldl (fun s m => s.send kv.1 m) s
  | none =>
    match if s.jobLive then s.instancesWith x.rank else [] with
    | (k, r) :: rest => (((k, r) :: rest).foldl (fun s kr => s.abortInst kr.1 kr.2 0x0522) s).stopUnit 0x0522 r.station
    | [] => s

/-- A BULK session has failed: its operation is held (R507). -/
def State.bulkLost (s : State) (i : Nat) : State :=
  match s.mrn.ops.find? fun o => o.session == some i && o.live with
  | some o => s.putOp { o with state := .held, session := none }
  | none => s

/-- A11 (R489): counted, SESSION_FAILED, the trigger of source 5 for a CONTROL or MEMBERSHIP session, and the users. -/
def State.failSession (e : Nat) (s : State) (i : Nat) : State :=
  let x := s.session i
  let (s, cap) := if x.kind == 0 || x.kind == 1 then s.trigger 5 else (s, false)
  let s := s.countFailed e i (trgFlag cap)
  if x.kind == 1 && !x.opener then s.memberLost x
  else if x.kind == 2 then s.bulkLost i
  else if x.kind == 3 then s.peerLost i x
  else s

/-- An event that brings nothing with it. -/
def State.event (s : State) (e i : Nat) : State := s.fire (Acts.plain State.failSession) e i

/-- E18: a session whose partner is lost otherwise. -/
def State.lose (s : State) (i : Nat) : State := s.event 18 i

/-- E10 (R491). -/
def State.resyncNeeded (s : State) (i : Nat) : State := s.event 10 i

/-- The PEER sessions that satisfy `p` take E18. -/
def State.losePeers (s : State) (p : Session → Bool) : State :=
  (s.mrn.sessions.keysWhere fun x => x.kind == 3 && p x).foldl State.lose s

/-- A ROSTER that gives a rank a new address ends its PEER sessions to the old one (R549). -/
def State.loseStale (s : State) : State :=
  s.losePeers fun x =>
    match s.rankAddr x.rank x.plane with
    | some a => x.addr != a
    | none => false

/-- ROSTER as delivered: what it says of this module, then the sessions that it ends, then messages that waited for a peer. -/
def State.rosterMsg (s : State) (p : Bytes) : State :=
  let s := (s.takeRosterMsg p).loseStale
  (s.job.unsent.map (·.rank)).foldl (fun s r => (s.openPeer r).flushPeer r) s

/-- FAILED as delivered: the PEER sessions to the rank take E18 (R549, R511). -/
def State.failedMsg (s : State) (p : Bytes) : State :=
  let rank := leAt p 0 2
  (s.takeFailed p).losePeers fun x => x.rank == rank

end Sys2Proof.Machine
end

