-- ==== Sys2Proof/Machine/Power.lean ====
section
/-!
DEFINITION. The input, the power modes and the governor (R576–R583, R599, R679, R687, R690).
-/
namespace Sys2Proof.Machine

/-! ### The input (R577) -/

/-- The largest input power of a mode in W (R580). -/
def modeEnvelope (mode : Nat) : Nat := if mode == 0 then 2300 else if mode == 1 then 2700 else if mode == 2 then 3000 else 3400

/-- VIN_OVERVOLTAGE (R577): the switch opens. -/
def execVinOvervoltage (s : State) : Host.Outcome State Fault Refusal :=
  .next (if s.power.pwrEn && !s.power.switchOpen then { s with power := { s.power with switchOpen := true, openByVin := true } } else s)

/-- VIN_SWITCH_CLOSE (R577): the switch that an overvoltage opened closes; one that PWR_EN opened stays open (R673). -/
def execVinSwitchClose (s : State) : Host.Outcome State Fault Refusal :=
  .next (if s.power.pwrEn && s.power.openByVin then { s with power := { s.power with switchOpen := false, openByVin := false } } else s)

/-- VIN_HIGH (R577). -/
def execVinHigh (s : State) : Host.Outcome State Fault Refusal := .next (if s.power.pg then s.raise pgPWR 0 s.power.vin else s)

/-! ### Modes and the PEAK lease (R581, R582) -/

/-- A write of PWR_MODE: values above 3 are ignored, and PEAK needs a live lease. -/
def State.writeMode (s : State) (v : W32) : State :=
  let m := v.toNat % 8
  if 3 < m then s
  else if m == 3 && s.power.lease == 0 then s.latchErr pgPWR 0x0603 (unitInfo pgPWR)
  else s.setMode m

/-- PWR_MODE_WRITE (R581). -/
def execPwrModeWrite (v : W32) (s : State) : Host.Outcome State Fault Refusal := .next (if s.power.pg then s.writeMode v else s)

/-- The end of a lease: the module changes to OVERLAP, and PEAK_EXPIRED is raised (R582). -/
def State.endLease (s : State) : State :=
  if s.power.lease == 0 then s else
  (State.setMode { s with power := { s.power with lease := 0 } } 2).raise pgPWR 1 0

/-- A write of PWR_PEAK_GRANT: a lease in ms, counted from the write; zero revokes the grant. -/
def State.writeLease (s : State) (v : W32) : State :=
  let ms := v.toNat % 65536
  if ms == 0 then s.endLease else { s with power := { s.power with lease := ms } }

/-- PWR_PEAK_GRANT_WRITE (R582). -/
def execPwrPeakGrantWrite (v : W32) (s : State) : Host.Outcome State Fault Refusal := .next (if s.power.pg then s.writeLease v else s)

/-- PEAK_LEASE_EXPIRY (R582). -/
def execPeakLeaseExpiry (s : State) : Host.Outcome State Fault Refusal := .next (if s.power.pg then s.endLease else s)

/-! ### The governor (R579, R583, R687) -/

/-- Why the governor throttles, if it does: 1 power, 2 coolant, 3 current. -/
def PowerSt.excess (p : PowerSt) : Nat :=
  if modeEnvelope p.active < p.pin then 1 else if 550 < p.outlet then 2 else if 8500 < p.iin then 3 else 0

/-- The sensors' readings; a second of readings at 40.0 V or more forgets a low input voltage. -/
def PowerSt.measure (p : PowerSt) (m : Sensors) : PowerSt :=
  { p with vin := m.vin % 65536, iin := m.iin % 65536, pin := m.pin % 65536, outlet := m.outlet, inlet := m.inlet,
           vinLow := if m.vin < 40000 then 100000 else p.vinLow - 1 }

/-- One governor period's steps: down once per 20 µs, up once per 100 µs after 1 ms at 5 % below the envelope. -/
def PowerSt.govern (p : PowerSt) : PowerSt :=
  let since := p.sinceStep + 1
  let cause := p.excess
  let below := if cause == 0 && decide (p.pin * 100 ≤ modeEnvelope p.active * 95) then min 100 (p.below + 1) else 0
  if cause != 0 then
    (if p.step < 8 && 2 ≤ since then { p with step := p.step + 1, sinceStep := 0, below := 0, reason := cause }
     else { p with sinceStep := since, below := 0, reason := if p.step == 0 then 0 else cause })
  else if 0 < p.step && 100 ≤ below && 10 ≤ since then
    { p with step := p.step - 1, sinceStep := 0, below := below, reason := if p.step == 1 then 0 else p.reason }
  else { p with sinceStep := since, below := below }

/-- PIN_MAX keeps the largest average since it was last read. -/
def State.keepMax (s : State) (pin : Nat) : State :=
  let h := s.page pgPWR
  s.setPage pgPWR { h with ctr := h.ctr.set 0 0x4C (max (h.counter 0x4C) pin) }

/-- GOVERNOR_TICK (R579, R583). While a sag has paused the module only the readings change. -/
def execGovernorTick (m : Sensors) (s : State) : Host.Outcome State Fault Refusal :=
  .next (
    if !s.power.pg then s else
    let fell := s.power.vinLow == 0 && decide (m.vin < 40000)
    let s := { s with power := s.power.measure m }
    let s := s.keepMax s.power.pin
    let s := if fell && s.jobLoaded then s.raise pgPWR 3 s.power.vin else s
    if s.paused then s else
    let was := s.power.step
    let s := { s with power := s.power.govern }
    if was == 0 && s.power.step == 1 then s.raise pgPWR 2 s.power.reason else s)

/-- COOLANT_LIMIT (R687): the job stops, the module reports itself failed, and every skein is held off. -/
def execCoolantLimit (s : State) : Host.Outcome State Fault Refusal :=
  .next (
    if !s.power.pg || s.power.step != 8 || s.power.outlet ≤ 620 then s else
    let s := (s.latchErr pgPWR 0x0605 (unitInfo pgPWR)).stopUnit 0x0605 0
    let s := s.selfFailed 0x0605
    { s with
      sk := s.sk.mapV fun (k : Skein) => { k with power := .off },
      power := { s.power with coolantStop := true, queue := s.power.queue.filter fun q => match q with | .wake _ => false | .raise _ => true } })

/-- A read of PWR_PIN resets PIN_MAX (R637). -/
def State.readPin (s : State) : State := s.resetCounter pgPWR 0x4C

/-- PWR_PIN_READ (R637). -/
def execPwrPinRead (s : State) : Host.Outcome State Fault Refusal := .next (if s.power.pg then s.readPin else s)

/-! ### PG and ALERT_N (R676, R679) -/

/-- The level of PG: high from the last step of power-on, and low as soon as PWR_EN is, though the module runs on its bank until it resets
(R673, R676). -/
def PowerSt.pgPin (p : PowerSt) : Bool := p.pg && p.pwrEn

/-- The causes of ALERT_N. -/
def State.alertCause (s : State) : Nat :=
  b2n (s.sag.state == .pausing || s.sag.state == .saving || s.sag.state == .hold) + 2 * b2n s.power.openByVin
    + 4 * b2n (s.power.reason == 2) + 8 * b2n s.power.coolantStop + 16 * b2n (s.trust.tamper != 0)

/-- The level of ALERT_N: low while a cause holds. -/
def State.alertPin (s : State) : Bool := s.alertCause == 0

end Sys2Proof.Machine
end

