-- ==== Sys2Proof/Machine/Edwards.lean ====
section
/-!
DEFINITION. Ed448 (RFC 8032) and X448 (RFC 7748), which the spec names for sessions, images and attestation (R485, R486, R602, R609).
-/
namespace Sys2Proof.Machine

/-- The field's prime, 2^448 − 2^224 − 1. -/
def p448 : Nat := 2 ^ 448 - 2 ^ 224 - 1

/-- The order of the base point. -/
def order448 : Nat :=
  2 ^ 446 - 0x8335DC163BB124B65129C96FDE933D8D723A70AADC873D6D54A7BB0D

def fSub (a b : Nat) : Nat := (a + p448 - b % p448) % p448

/-- A power in the field, by squaring; `n` bounds the exponent's bits. -/
def fPow : Nat → Nat → Nat → Nat
  | 0, _, _ => 1
  | n + 1, a, e =>
    let h := fPow n (a * a % p448) (e / 2)
    if e % 2 == 1 then a * h % p448 else h

def fInv (a : Nat) : Nat := fPow 448 a (p448 - 2)

/-! ### Ed448 -/

/-- A point in projective coordinates. -/
structure EdPoint where
  x : Nat
  y : Nat
  z : Nat
deriving DecidableEq, Repr

def edD : Nat := p448 - 39081
def EdPoint.zero : EdPoint := ⟨0, 1, 1⟩

def EdPoint.base : EdPoint :=
  ⟨224580040295924300187604334099896036246789641632564134246125461686950415467406032909029192869357953282578032075146446173674602635247710,
   298819210078481492676017930443930673437544040154080242095928241372331506189835876003536878655418784733982303233503462500531545062832660, 1⟩

/-- Addition, complete on this curve. -/
def EdPoint.add (p q : EdPoint) : EdPoint :=
  let a := p.z * q.z % p448
  let b := a * a % p448
  let c := p.x * q.x % p448
  let d := p.y * q.y % p448
  let e := edD * (c * d % p448) % p448
  let f := fSub b e
  let g := (b + e) % p448
  let h := (p.x + p.y) * (q.x + q.y) % p448
  ⟨a * f % p448 * fSub (fSub h c) d % p448, a * g % p448 * fSub d c % p448, f * g % p448⟩

/-- A multiple of a point; `n` bounds the scalar's bits. -/
def EdPoint.mul : Nat → Nat → EdPoint → EdPoint
  | 0, _, _ => EdPoint.zero
  | n + 1, k, p =>
    let h := EdPoint.mul n (k / 2) (p.add p)
    if k % 2 == 1 then p.add h else h

def EdPoint.same (p q : EdPoint) : Bool :=
  p.x * q.z % p448 == q.x * p.z % p448 && p.y * q.z % p448 == q.y * p.z % p448

/-- The 57-byte encoding of a point. -/
def EdPoint.encode (p : EdPoint) : Bytes :=
  let i := fInv p.z
  leBytes 57 (p.y * i % p448 + p.x * i % p448 % 2 * 2 ^ 455)

/-- The point that 57 bytes encode, if any. -/
def EdPoint.decode (bs : Bytes) : Option EdPoint :=
  let v := leNat (fitBytes 57 bs)
  let y := v % 2 ^ 455
  let sign := v / 2 ^ 455
  if p448 ≤ y then none else
  let u := fSub (y * y % p448) 1
  let w := fSub (edD * (y * y % p448) % p448) 1
  let u3w := u * u % p448 * u % p448 * w % p448
  let x := u3w * fPow 448 (u3w * (u * u % p448) % p448 * (w * w % p448) % p448) ((p448 - 3) / 4) % p448
  if w * (x * x % p448) % p448 != u then none
  else if x == 0 && sign == 1 then none
  else some ⟨if x % 2 == sign then x else p448 - x, y, 1⟩

/-- The prefix of both hashes, with an empty context. -/
def edDom : Bytes := ascii "SigEd448" ++ zeros 2

/-- The secret scalar of a 57-byte key, and the prefix of its signatures. -/
def edSecret (key : Bytes) : Nat × Bytes :=
  let h := shake256 (fitBytes 57 key) 114
  let v := leNat (h.take 56)
  (v % 2 ^ 447 / 4 * 4 + 2 ^ 447, h.drop 57)

def edPublic (key : Bytes) : Bytes := (EdPoint.mul 448 (edSecret key).1 EdPoint.base).encode

/-- The signature of a message by a key. -/
def edSign (key msg : Bytes) : Bytes :=
  let (s, pre) := edSecret key
  let r := leNat (shake256 (edDom ++ pre ++ msg) 114) % order448
  let R := (EdPoint.mul 448 r EdPoint.base).encode
  let k := leNat (shake256 (edDom ++ R ++ edPublic key ++ msg) 114) % order448
  R ++ leBytes 57 ((r + k * s) % order448)

/-- A signature verifies against a public key: the equation multiplied by the cofactor 4. -/
def edVerify (pub msg sig : Bytes) : Bool :=
  let S := leNat ((sig.drop 57).take 57)
  match EdPoint.decode (sig.take 57), EdPoint.decode pub with
  | some R, some A =>
    let k := leNat (shake256 (edDom ++ sig.take 57 ++ fitBytes 57 pub ++ msg) 114) % order448
    sig.length == 114 && decide (S < order448)
      && (EdPoint.mul 448 (4 * S) EdPoint.base).same
           ((EdPoint.mul 3 4 R).add (EdPoint.mul 448 (4 * k) A))
  | _, _ => false

/-! ### X448 -/

/-- The ladder of RFC 7748 from the bit above `n` down. -/
def ladder448 (u k : Nat) : Nat → Nat × Nat × Nat × Nat → Nat × Nat × Nat × Nat
  | 0, t => t
  | n + 1, (x2, z2, x3, z3) =>
    let b := k / 2 ^ n % 2 == 1
    let (x2, x3) := if b then (x3, x2) else (x2, x3)
    let (z2, z3) := if b then (z3, z2) else (z2, z3)
    let a := (x2 + z2) % p448
    let aa := a * a % p448
    let m := fSub x2 z2
    let bb := m * m % p448
    let e := fSub aa bb
    let c := (x3 + z3) % p448
    let d := fSub x3 z3
    let da := d * a % p448
    let cb := c * m % p448
    let x3 := (da + cb) % p448 * ((da + cb) % p448) % p448
    let z3 := u * (fSub da cb * fSub da cb % p448) % p448
    let x2 := aa * bb % p448
    let z2 := e * ((aa + 39081 * e) % p448) % p448
    let (x2, x3) := if b then (x3, x2) else (x2, x3)
    let (z2, z3) := if b then (z3, z2) else (z2, z3)
    ladder448 u k n (x2, z2, x3, z3)

/-- X448 of a 56-byte scalar and a 56-byte coordinate. -/
def x448 (scalar coord : Bytes) : Bytes :=
  let k := leNat (fitBytes 56 scalar) % 2 ^ 447 / 4 * 4 + 2 ^ 447
  let u := leNat (fitBytes 56 coord) % p448
  let (x2, z2, _, _) := ladder448 u k 448 (1, 0, u, 1)
  leBytes 56 (x2 * fInv z2 % p448)

/-- The public value of a scalar. -/
def x448Base (scalar : Bytes) : Bytes := x448 scalar (leBytes 56 5)

end Sys2Proof.Machine
end

