-- ==== Sys2Proof/Machine/Trust.lean ====
section
/-!
DEFINITION. Trust (R601–R621): the checks of a firmware image, the fuse-backed settings and the change ledger, the life cycle, tamper, and
what a module reset leaves (R471, R594, R622).
-/
namespace Sys2Proof.Machine

/-! ### The firmware image (R601–R604) -/

/-- The first 64 bytes of the digest that a signature covers (R602). -/
def imageDigest (img : Bytes) : Bytes := shake256 (img.take 0x50 ++ img.drop 512) 64

def keyDigest (key : Bytes) : Bytes := shake256 key 32

def imageSvn (img : Bytes) : Nat := leAt img 6 1
def imageRevoke (img : Bytes) : Nat := leAt img 7 1

def allZero (bs : Bytes) : Bool := bs.all fun b => b == 0

/-- Steps 2 to 5 of the boot checks (R603): the first that fails, or 0. -/
def imageStep (f : Fuses) (img : Bytes) : Nat :=
  let body := leAt img 0x0C 4
  let slot := leAt img 5 1
  let pub := (img.drop 0x10).take 57
  if leAt img 0 4 != 0x5451464D || leAt img 4 1 != 1 || body == 0 || 33553920 < body || img.length != 512 + body
      || imageRevoke img / 16 != 0 || !(allZero ((img.drop 0x49).take 7)) || !(allZero ((img.drop 0xC2).take 318)) then 2
  else if 4 ≤ slot || bit f.revoked slot || keyDigest pub != f.vendorDigests.getD slot [] then 3
  else if imageSvn img < f.svnMin then 4
  else if !(edVerify pub (imageDigest img) ((img.drop 0x50).take 114)) then 5
  else 0

/-! ### The keep store (R385, R387, R388) -/

/-- A region of the keep store: offset, bytes of one copy, copies. -/
structure KeepRegion where
  name : String
  offset : Nat
  size : Nat
  copies : Nat
deriving DecidableEq, Repr

/-- The regions of R385, in the order of their offsets. State holds their contents: `Trust.fw`, the mirrors, the ledger's copies, `Sag.image` and
`Wear.history`; the spare blocks hold nothing that a program meets. -/
def keepRegions : List KeepRegion :=
  [⟨"firmware image", 0, 0x2000000, 1⟩, ⟨"fuse mirror", 0x2000000, 0x100000, 2⟩, ⟨"change ledger", 0x2200000, 0x200000, 2⟩,
   ⟨"sag-save area", 0x2600000, 0x800000, 1⟩, ⟨"wear history", 0x2E00000, 0x1000000, 1⟩, ⟨"spare blocks", 0x3E00000, 0xC200000, 1⟩]

/-- A write to the fuse mirror: one copy, read back, then the other (R388). -/
def Trust.putMirror (t : Trust) (f : Fuses) : Trust :=
  let t := { t with mirrorA := some f }
  if t.mirrorA == some f then { t with mirrorB := some f } else t

/-- A write to the change ledger: one copy, read back, then the other (R388). -/
def Trust.putLedger (t : Trust) (l : List LedgerEntry) : Trust :=
  let t := { t with ledger := l }
  if t.ledger == l then { t with ledger2 := l } else t

/-! ### The ledger (R588, R614, R615) -/

/-- Appends an entry, a write of the keep store; CHANGED is raised. -/
def State.appendLedger (s : State) (code : Nat) (again : Bool) (count old new : Nat) (origin : W64) : State :=
  let e : LedgerEntry := ⟨s.trust.ledger.length + 1, code, again, count, s.mrn.bootCount, old, new, origin⟩
  (State.raise { s with trust := s.trust.putLedger (s.trust.ledger ++ [e]) } pgFUSE 0 e.seq).keepWritten

def LedgerEntry.bytes (e : LedgerEntry) : Bytes :=
  leBytes 8 e.seq ++ leBytes 1 e.code ++ leBytes 1 (b2n e.reconstructed) ++ leBytes 2 e.count ++ leBytes 4 e.boot
    ++ leBytes 8 e.old ++ leBytes 8 e.new ++ leBytes 8 e.origin.toNat ++ zeros 24

/-- Set bits of a vendor-slot mask. -/
def maskCount (m : Nat) : Nat := ((List.range 4).filter fun i => bit m i).length

/-- The counter of a setting (R611). -/
def Fuses.counter (f : Fuses) (code : Nat) : Nat :=
  if code == 1 then f.roleN else if code == 2 then f.svnMin else if code == 3 then maskCount f.revoked
  else if code == 4 then f.ownerN else if code == 5 then f.addrN else f.lcN

/-- The role in the fuses (R613). -/
def Fuses.manager (f : Fuses) : Bool := f.roleBase != (f.roleN % 2 == 1)

/-- The present value of a setting, as a ledger entry gives it. -/
def Fuses.value (f : Fuses) (code : Nat) : Nat :=
  if code == 1 then b2n f.manager else if code == 2 then f.svnMin else if code == 3 then f.revoked
  else if code == 5 then f.addrBlock else if code == 6 then f.lc else 0

/-- Entries of the ledger for a setting. -/
def Trust.entries (t : Trust) (code : Nat) : List LedgerEntry := t.ledger.filter fun e => e.code == code

/-- The value that the ledger last gives a setting; before any entry, the one that the order fused (R616). -/
def Trust.lastNew (t : Trust) (code : Nat) : Nat :=
  match (t.entries code).getLast? with
  | some e => e.new
  | none => if code == 5 && t.fuses.lc != 0 then Config.orderBlock % 2 ^ 48 else 0

/-- The first 8 bytes of the owner keys' digests. -/
def Fuses.keyMarks (f : Fuses) : List Nat := f.ownerKeys.map fun k => leNat ((keyDigest k.2).take 8)

/-- The owner-key change that the ledger lacks, as the fuses show it: a key whose digest the ledger does not give, over one that it gives and
that no slot holds any more. -/
def Trust.keyChange (t : Trust) : Nat × Nat :=
  let given := (t.entries 4).map (·.new)
  let gone := given.filter fun v => !(t.fuses.keyMarks.contains v) && !((t.entries 4).any fun e => e.old == v)
  (gone.getLastD 0, (t.fuses.keyMarks.filter fun v => !(given.contains v)).headD 0)

/-- The changes of a setting that the fuses show and the ledger lacks: the counter after each, the old value and the new one. A role and a
life cycle change with each count; of the other settings the fuses hold the last value only, and one change leads to it (log entry 123). -/
def Trust.lacking (t : Trust) (code : Nat) : List (Nat × Nat × Nat) :=
  let known := (t.entries code).foldl (fun m (e : LedgerEntry) => max m e.count) 0
  let shown := t.fuses.counter code
  let counts := (List.range (shown - known)).map (known + · + 1)
  let role (n : Nat) : Nat := b2n (t.fuses.roleBase != (n % 2 == 1))
  if shown ≤ known then []
  else if code == 1 then counts.map fun n => (n, role (n - 1), role n)
  else if code == 6 then counts.map fun n => (n, n - 1, n)
  else if code == 4 then [(shown, t.keyChange)]
  else [(shown, t.lastNew code, t.fuses.value code)]

/-- The changes that the fuses show and the ledger lacks are appended with RECONSTRUCTED set (R615). -/
def State.reconstruct (s : State) : State :=
  [1, 2, 3, 4, 5, 6].foldl (fun (s : State) code =>
    (s.trust.lacking code).foldl (fun (s : State) c => s.appendLedger code true c.1 c.2.1 c.2.2 0) s) s

/-! ### A module reset (R471, R385, R622) -/

/-- What survives in the keep store and the fuses; everything else returns to its reset value. The queue of commands, the count of free
values and the record of what was sent are the model's own. -/
def State.resetModule (s : State) : State :=
  { State.reset with
    pending := s.pending, free := s.free, trd := { Treadle.reset with ringIn := s.trd.ringIn },
    mrn := { Miornal.reset with out := s.mrn.out, plain := s.mrn.plain, bootCount := s.mrn.bootCount, table := s.mrn.table },
    trust := { Trust.reset with
      fuses := s.trust.fuses, mirrorA := s.trust.mirrorA, mirrorB := s.trust.mirrorB, fw := s.trust.fw, ledger := s.trust.ledger,
      ledger2 := s.trust.ledger2, ledgerBad := s.trust.ledgerBad },
    wear := { Wear.reset with history := s.wear.history },
    sag := { Sag.reset with image := s.sag.image },
    power := { PowerSt.reset with
      pwrEn := s.power.pwrEn, slotId := s.power.slotId, tamperLvl := s.power.tamperLvl, switchOpen := s.power.switchOpen,
      openByVin := s.power.openByVin, coolantStop := s.power.coolantStop, vin := s.power.vin, inlet := s.power.inlet,
      outlet := s.power.outlet } }

/-! ### Tamper (R618, R619) -/

/-- The secure region is wiped (R374). -/
def State.wipeSecure (s : State) : State := s.clearMem secureBase 0x400000

/-- Every session's keys are erased. -/
def State.eraseKeys (s : State) : State :=
  { s with mrn := { s.mrn with sessions := s.mrn.sessions.mapV fun (x : Session) => { x with keyRx := [], keyTx := [], secret := 0 } } }

/-- SG_SUPERSEDED is programmed where a valid image is not superseded yet (R592, R618). -/
def State.supersede (s : State) : State :=
  match s.sag.image with
  | some g =>
    if g.valid && !g.superseded then State.keepWritten { s with sag := { s.sag with image := some { g with superseded := true } } } else s
  | none => s

/-- A source that is active from its event on until the contrary is known: a low TAMPER_N and an over-temperature. A glitch is over with its
event (log entry 71). -/
def lasting (src : Nat) : Nat := if src == 0 || src == 3 then 2 ^ src else 0

/-- What a tamper event does, in its order. -/
def State.runTamper (s : State) (src : Nat) : State :=
  let (s, cap) := (s.wipeSecure.eraseKeys).trigger 7
  let s := (s.stopJobM { StopRec.none with code := 0x0701 } cap).supersede
  let s := { s with trust := { s.trust with tamper := s.trust.tamper ||| 2 ^ src, tamperActive := s.trust.tamperActive ||| lasting src } }
  let s := (s.latchErr pgSEC 0x0701 (unitInfo pgSEC)).raiseF pgSEC 0 (trgFlag cap) (2 ^ src)
  s.appendLedger 7 false 0 0 (2 ^ src) 0

/-- A tamper event; during a sag save it waits until the image has been written (R619). -/
def State.tamperNow (s : State) (src : Nat) : State :=
  if s.sag.state == .pausing || s.sag.state == .saving then
    { s with trust := { s.trust with tamperHeld := s.trust.tamperHeld ||| 2 ^ src } }
  else s.runTamper src

/-- The tamper events that waited for the end of a save. -/
def State.heldTamper (s : State) : State :=
  let held := s.trust.tamperHeld
  (List.range 4).foldl (fun (s : State) i => if bit held i then s.runTamper i else s)
    { s with trust := { s.trust with tamperHeld := 0 } }

/-- The level of the TAMPER_N pin as a command shows it (R678, R690). -/
def State.tamperPin (s : State) (high : Bool) : State := { s with power := { s.power with tamperLvl := high } }

/-- TAMPER (R618, R678): TAMPER_N is judged while PG is high, and only then; the other sources act whenever the module has power. -/
def execTamper (src : Nat) (s : State) : Host.Outcome State Fault Refusal :=
  .next (
    let s := if src == 0 && s.power.pwrEn then s.tamperPin false else s
    if decide (src < 4) && (s.power.pg || (src != 0 && s.power.pwrEn)) then s.tamperNow src else s)

/-- SEC_TAMPER_CLEAR (R619): a bit whose source is still active stays; bit 0 of the active sources is a low TAMPER_N pin (R690). -/
def execSecTamperClear (v : W32) (active : BitVec 4) (s : State) : Host.Outcome State Fault Refusal :=
  .next (
    let keep := (List.range 4).foldl (fun m i =>
      m + (if bit s.trust.tamper i && (!(v.getLsbD i) || active.getLsbD i) then 2 ^ i else 0)) 0
    State.tamperPin { s with trust := { s.trust with tamper := keep, tamperActive := active.toNat } } (!(active.getLsbD 0)))

/-! ### Fuse-backed settings (R611–R614) -/

/-- The stage registers as bytes. -/
def State.stageBytes (s : State) : Bytes := (List.range 16).flatMap fun i => leBytes 4 (s.trust.stage.get 0 i).toNat

def State.stageNat (s : State) (n : Nat) : Nat := leNat (s.stageBytes.take n)

/-- The owner's settings are requested over a session proven against an owner slot (R611, R616). -/
def State.ownerState (s : State) : Bool := s.trust.fuses.lc == 1 || s.trust.fuses.lc == 2

/-- A change that is ready: the new fuses, the counter after it, and the ledger's old and new values. -/
structure FuseChange where
  fuses : Fuses
  count : Nat
  old : Nat
  new : Nat

/-- The change that a request asks for (R611–R613, R616): refused with a code, nothing to change, or a change. -/
def State.fuseRequest (s : State) (code arg : Nat) : Except W16 (Option FuseChange) :=
  let f := s.trust.fuses
  let v := s.stageNat 8
  let img := s.trust.running.getD []
  if code == 1 then
    if !s.ownerState || !s.isX || 1 < v then .error 0x0703
    else if b2n f.manager == v then .ok none
    else if 15 ≤ f.roleN then .error 0x0704
    else .ok (some ⟨{ f with roleN := f.roleN + 1 }, f.roleN + 1, b2n f.manager, v⟩)
  else if code == 2 then
    if !s.ownerState || decide (v < f.svnMin) || decide (imageSvn img < v) then .error 0x0703
    else if v == f.svnMin then .ok none
    else if 64 < v then .error 0x0704
    else .ok (some ⟨{ f with svnMin := v }, v, f.svnMin, v⟩)
  else if code == 3 then
    if !s.ownerState || 16 ≤ v || v &&& (15 - imageRevoke img % 16) != 0 || (f.revoked ||| v) == 15 then .error 0x0703
    else if (f.revoked ||| v) == f.revoked then .ok none
    else .ok (some ⟨{ f with revoked := f.revoked ||| v }, maskCount (f.revoked ||| v), f.revoked, f.revoked ||| v⟩)
  else if code == 4 then
    let key := s.stageBytes.take 57
    if !s.ownerState || 3 < arg then .error 0x0703
    else if 8 ≤ f.ownerN then .error 0x0704
    else
      let old := match f.ownerKeys.find arg with | some k => leNat ((keyDigest k).take 8) | none => 0
      .ok (some ⟨{ f with ownerN := f.ownerN + 1, ownerKeys := f.ownerKeys.put arg key }, f.ownerN + 1, old,
        leNat ((keyDigest key).take 8)⟩)
  else if code == 5 then
    if !s.ownerState || decide (2 ^ 48 ≤ v) then .error 0x0703
    else if 4 ≤ f.addrN then .error 0x0704
    else .ok (some ⟨{ f with addrN := f.addrN + 1, addrBlock := v }, f.addrN + 1, f.addrBlock, v⟩)
  else if code == 6 then
    if v != f.lc + 1 || 4 < v then .error 0x0703
    else
      let g := { f with lc := v, lcN := f.lcN + 1 }
      let g := if v == 1 then { g with idKey := true, roleBase := s.isX && Config.orderRole, addrBlock := Config.orderBlock % 2 ^ 48,
                                       ownerKeys := g.ownerKeys.put 0 (fitBytes 57 Config.orderOwner) }
        else if v == 3 then { g with ownersOff := true }
        else if v == 4 then { g with idKey := false }
        else g
      .ok (some ⟨g, g.lcN, f.lc, v⟩)
  else .error 0x0703

/-- FUSE_RESULT.ERR, and the page's error latch for a refusal. -/
def State.fuseAnswer (s : State) (code : W16) : State :=
  let s := { s with trust := { s.trust with fuseErr := code } }
  if code == 0 then s else s.latchErr pgFUSE code (unitInfo pgFUSE)

/-- A CAP_TEST runs: no fuse change and no write of the firmware slot goes on beside it (R663). -/
def State.capTesting (s : State) : Bool := s.maint.running.any fun q => q.act == 1

/-- A FUSE_CMD write (R612, R614, R619): refused, or fuses, mirror and ledger changed. The answer tells that a change was made. A request
while a CAP_TEST runs finds the fuses busy (DESIGN CHOICE, log entry 121). -/
def State.fuseCmd (s : State) (code arg : Nat) (origin : W64) : State × Bool :=
  if s.trust.tamper != 0 then (s.fuseAnswer 0x0702, false)
  else if s.jobLoaded || s.paused || s.capTesting then (s.fuseAnswer 0x0709, false)
  else
    match s.fuseRequest code arg with
    | .error c => (s.fuseAnswer c, false)
    | .ok none => (s.fuseAnswer 0, false)
    | .ok (some ch) =>
      let s := { s with trust := Trust.putMirror { s.trust with fuses := ch.fuses } ch.fuses }
      ((s.appendLedger code false ch.count ch.old ch.new origin).fuseAnswer 0, true)

/-- Steps 1, 3 and 4 of a life-cycle change (R617): the secure region is wiped, every session is closed, the module resets. -/
def State.lifeReset (s : State) : State :=
  let s := s.wipeSecure.eraseKeys
  State.resetModule ((s.mrn.sessions.map (·.1)).foldl State.lose s)

/-- FUSE_ROLE (R611). -/
def execFuseRole (arg : Nat) (origin : W64) (s : State) : Host.Outcome State Fault Refusal :=
  .next (if s.power.pg then (s.fuseCmd 1 arg origin).1 else s)

/-- FUSE_SVN_MIN (R611). -/
def execFuseSvnMin (arg : Nat) (origin : W64) (s : State) : Host.Outcome State Fault Refusal :=
  .next (if s.power.pg then (s.fuseCmd 2 arg origin).1 else s)

/-- FUSE_REVOKE (R611). -/
def execFuseRevoke (arg : Nat) (origin : W64) (s : State) : Host.Outcome State Fault Refusal :=
  .next (if s.power.pg then (s.fuseCmd 3 arg origin).1 else s)

/-- FUSE_OWNER_INSTALL (R611). -/
def execFuseOwnerInstall (arg : Nat) (origin : W64) (s : State) : Host.Outcome State Fault Refusal :=
  .next (if s.power.pg then (s.fuseCmd 4 arg origin).1 else s)

/-- FUSE_ADDRESS_BLOCK (R611). -/
def execFuseAddressBlock (arg : Nat) (origin : W64) (s : State) : Host.Outcome State Fault Refusal :=
  .next (if s.power.pg then (s.fuseCmd 5 arg origin).1 else s)

/-- FUSE_LIFE_CYCLE (R616, R617). -/
def execFuseLifeCycle (arg : Nat) (origin : W64) (s : State) : Host.Outcome State Fault Refusal :=
  .next (
    if !s.power.pg then s else
    let (s, changed) := s.fuseCmd 6 arg origin
    if changed then s.lifeReset else s)

/-- The data words of the ledger entry selected. -/
def State.ledgerSel (s : State) (v : W32) : State :=
  let bs := match s.trust.ledger.find? fun e => e.seq == v.toNat with | some e => e.bytes | none => zeros 64
  { s with trust := { s.trust with lsel := v.toNat, ldata := bs } }

/-- FUSE_LEDGER_SEL_WRITE (R621). -/
def execFuseLedgerSelWrite (v : W32) (s : State) : Host.Outcome State Fault Refusal :=
  .next (if s.power.pg then s.ledgerSel v else s)

/-! ### Boot (R388, R603, R605–R607) -/

/-- A copy of the fuse mirror or of the change ledger whose check fails is restored from the other (R388). -/
def Trust.repair (t : Trust) : Trust :=
  { t with
    mirrorA := t.mirrorA.or t.mirrorB, mirrorB := t.mirrorB.or t.mirrorA,
    ledger := if t.ledgerBad == 1 then t.ledger2 else t.ledger, ledger2 := if t.ledgerBad == 2 then t.ledger else t.ledger2,
    ledgerBad := if t.ledgerBad == 3 then 3 else 0 }

/-- BOOT_REASON of the checks (R603). -/
def Trust.bootStep (t : Trust) : Nat :=
  if t.mirrorA != some t.fuses || t.mirrorB != some t.fuses then 1 else imageStep t.fuses t.fw

/-- The boot ROM's checks at a reset: the boot count, the role and address block in force, the missing ledger entries, and the image
that runs, or RECOVERY_LISTEN. -/
def State.bootRom (s : State) : State :=
  let t := s.trust.repair
  let step := t.bootStep
  let t := { t with bootReason := step, recovery := step != 0, running := if step == 0 then some t.fw else none,
                    mgrRole := s.isX && t.fuses.manager, addrBase := t.fuses.addrBlock }
  let s := { s with trust := t, mrn := { s.mrn with bootCount := (s.mrn.bootCount + 1) % 2 ^ 32 } }
  let s := s.reconstruct
  -- in RECOVERY_LISTEN no firmware runs that could have replaced the session table (R492)
  if step == 0 then s else State.raise { s with mrn := { s.mrn with table := none } } pgSEC 1 step

/-- The running firmware replaces the session table while no session is open (R492); an image that breaks R492 is refused with
STATE_TABLE_INVALID, latched on MRN0's page, and the loaded table stays. When firmware does so the spec does not say; in the model it does at
power-on (DESIGN CHOICE, log entry 118). -/
def State.loadTable (s : State) (t : Option SessTable) : State :=
  match t with
  | none => s
  | some t =>
    if !s.mrn.sessions.isEmpty then s
    else if t.ok then { s with mrn := { s.mrn with table := some t } } else s.latchErr (pgMRN 0) 0x050D 0

/-- A received firmware image that has arrived whole (R604): the code that ends its operation, or the slot erased and its programming under
way. While a CAP_TEST runs the erase waits (R663). -/
def State.installImage (s : State) (op : W64) (img : Bytes) : State × Option W16 :=
  let step := imageStep s.trust.fuses img
  if s.trust.tamper != 0 then (s, some 0x0702)
  else if step == 4 then (s, some 0x0707)
  else if step != 0 then (s, some 0x0706)
  else ({ s with trust := { s.trust with fw := if s.capTesting then s.trust.fw else [], slotWrite := some (op, img) } }, none)

/-- IMAGE_RESET_TIMER (R604): the module resets. -/
def execImageResetTimer (s : State) : Host.Outcome State Fault Refusal :=
  .next (if s.trust.imageTimer then s.resetModule else s)

end Sys2Proof.Machine
end

