-- ==== Sys2Proof/Machine/Sag.lean ====
section
/-!
DEFINITION. The sag save and its recovery (R585–R600), power-on, boot and reset (R578, R594, R603, R673–R678, R688), and skeins that become
ready (R352, R592).
-/
namespace Sys2Proof.Machine

/-! ### The image (R590, R591) -/

/-- Bytes of a section whose layout is open, by a free index. -/
def openBytes (free len : Nat) : Bytes := (List.range len).map (Config.sagBytes free)

/-- The values that sections 1 and 6 carry: generation knots, C, serials, TRD_JOB_BASE and seed mask, and the page counters with their LAST
shadows (R591). -/
def State.sagValues (s : State) : SagValues :=
  { knots := match s.genKnot with | some g => (List.range 5).map fun j => (s.knot (g + j)).value | none => [],
    commits := s.commits, serials := (List.range 3).map s.slotSerial, jobBase := s.trd.jobBase, seedMask := s.seedMask,
    pages := s.pages }

/-- The sections by code, of their present sizes. -/
def State.sagSections (s : State) (free : Nat) : List (Nat × Bytes) :=
  [(1, openBytes free 4096), (2, openBytes (free + 1) (256 * s.mrn.sessions.length)), (3, openBytes (free + 2) 8192),
   (4, openBytes (free + 3) (576 * s.mrn.cache.length)), (5, trackerEntries 0 s.boundTrackers), (6, openBytes (free + 4) 524288),
   (7, openBytes (free + 5) 65536)]

/-- Section headers, with running offsets. -/
def sectionHeaders : Nat → List (Nat × Bytes) → Bytes
  | _, [] => []
  | off, (code, bs) :: rest => leBytes 2 code ++ zeros 2 ++ leBytes 4 off ++ leBytes 4 bs.length ++ zeros 4 ++ sectionHeaders (off + bs.length) rest

/-- The image as it is gathered, not yet marked valid. -/
def State.gatherImage (s : State) : SagImage × State :=
  let free := s.free
  let secs := s.sagSections free
  let len := 4096 + secs.foldl (fun n e => n + e.2.length) 0
  let job := if s.jobLoaded then s.job.serial else 0
  let head := leBytes 4 0x53475154 ++ leBytes 1 1 ++ leBytes 1 secs.length ++ zeros 2 ++ leBytes 4 s.mrn.bootCount ++ leBytes 4 job
    ++ leBytes 8 s.sag.atT ++ leBytes 8 s.sag.atJ ++ leBytes 4 len ++ zeros 4 ++ zeros 8 ++ sectionHeaders 4096 secs
  let raw := fitBytes 4096 head ++ secs.flatMap (·.2)
  let img := patch raw 0x24 (leBytes 4 (crc32c raw).toNat)
  ({ boot := s.mrn.bootCount, job := job, tpos := s.sag.atT, jpos := s.sag.atJ, len := len, valid := false, superseded := false,
     sessions := s.mrn.sessions, ops := s.mrn.ops, origins := s.mrn.origins, cache := s.mrn.cache,
     wear := s.wear.latest.map fun kv => ⟨kv.1, kv.2⟩, values := s.sagValues, bytes := img },
   { s with free := free + 6 })

/-- SG_MAGIC, SG_VALID, SG_SUPERSEDED and SG_CRC are good (R594). -/
def SagImage.good (g : SagImage) : Bool :=
  leAt g.bytes 0 4 == 0x53475154 && g.valid && !g.superseded
    && (crc32c (patch g.bytes 0x24 (zeros 4))).toNat == leAt g.bytes 0x24 4

/-! ### The sequence (R586, R587, R593, R595) -/

/-- A resume that a new dip cuts short: its skeins are in retention again, and what they asked of the start sequencer falls away. -/
def State.cutResume (s : State) : State :=
  let back (k : Nat) : Bool := (s.skein k).power == .retained || (s.skein k).power == .resuming
  { s with
    sk := s.sk.mapV fun (k : Skein) => if k.power == Power.resuming then { k with power := .retained } else k,
    power := { s.power with queue := s.power.queue.filter fun q => match q with | .wake k => !(back k) | .raise _ => true } }

/-- A CAP_TEST ends with 0x0903, and is requested once more when SAG is ARMED again (R598, R666). -/
def State.abandonCapTest (s : State) : State :=
  if !s.capTesting then s else
  let s := { s with maint := { s.maint with running := s.maint.running.filter (fun q => q.act != 1), capAgain := true } }
  ((s.mntLast 1 0x0903).raise pgMNT 2 1).mntExamine

/-- SAG_DETECT (R586, R587, R595): the bus has fallen below VWARN. A sag while the area is not erased, or over an image kept for DUMP, writes
none. A CAP_TEST that still runs is abandoned with the fall (R598). -/
def execSagDetect (s : State) : Host.Outcome State Fault Refusal :=
  .next (
    if !s.power.pg || !(s.sag.state == .armed || s.sag.state == .erasing || s.sag.state == .resuming) then s else
    let s := s.abandonCapTest
    let skip := s.sag.state != .armed || s.sag.kept
    let s := if s.sag.state == .resuming then s.cutResume else s
    let s := { s with sag := { s.sag with state := .pausing, staged := none, recovered := false, skipImage := skip, timedOut := false,
                                          stopped := false, atT := s.trd.tpos, atJ := s.jobPos } }
    let (s, cap) := s.trigger 8
    let s := s.raiseF pgSAG 0 (trgFlag cap) s.power.vin
    if skip then (s.count pgSAG 3 1).raise pgSAG 3 0 else s)

/-- SAG_PAUSED (R587): every unit has stopped at its own boundary, and nothing is discarded. -/
def execSagPaused (s : State) : Host.Outcome State Fault Refusal :=
  .next (if s.sag.state == .pausing then { s with sag := { s.sag with stopped := true } } else s)

/-- No skein is in retention or resuming. -/
def State.allReady (s : State) : Bool := !(s.sk.any fun kv => kv.2.power == .retained || kv.2.power == .resuming)

/-- What the sag has left to do of the event table (R597): the entries that fell due, each LATE, the COMMIT among them with the decision that
was recorded; and a recorded decision whose COMMIT had run undecided before the sag. -/
def State.catchUp (s : State) : State :=
  let s := match s.gen.vote, s.trd.heldDecision with
    | some v, some d =>
      if d.1 == v.pos && posLe v.pos s.jobPos && !((s.dueOf actCOMMIT).any fun ie => ie.2.pos == v.pos) then s.lateDecision d.2 else s
    | _, _ => s
  s.runEntries true

/-- SAG is ARMED again: a capacitor test that was abandoned is requested once more (R666). -/
def State.sagArmed (s : State) : State :=
  let s := { s with sag := { s.sag with state := .armed } }
  if s.maint.capAgain then State.mntRequest { s with maint := { s.maint with capAgain := false } } ⟨1, 0, false⟩ else s

/-- The end of a resume (R592, R597): SAG_RECOVERED, RECOVERED, what the sag has left to do, the erase; an image that is kept for a DUMP
stays (R594, log entry 74). -/
def State.finishResume (s : State) : State :=
  let s := if s.sag.kept then s.sagArmed else { s with sag := { s.sag with state := .erasing } }
  let s := s.sendStatus 5 0 0
  ((s.count pgSAG 1 1).raise pgSAG 2 0).catchUp

/-- The resume begins (R592): the image is superseded, the staging region is cleared, and every retained skein makes one request. -/
def State.beginResume (s : State) : State :=
  let s := if s.sag.kept then s else s.supersede
  let s := s.clearMem stagingBase 0x800000
  let l := s.sk.keysWhere fun k => k.power == .retained
  let s := { s with sag := { s.sag with state := .resuming, recovered := false },
                    power := { s.power with queue := s.power.queue ++ l.map SeqReq.wake } }
  if s.allReady then s.finishResume else s

/-- The save is over, and the module holds, or resumes where the bus has recovered meanwhile and PWR_EN has not fallen (R592, R673). -/
def State.enterHold (s : State) : State :=
  let s := State.heldTamper { s with sag := { s.sag with state := .hold } }
  if s.sag.recovered && s.power.pwrEn then s.beginResume else s

/-- SAG_GATHER_DONE (R587, R589): the compute dies enter retention, and the image's write begins. -/
def State.sagGathered (s : State) : State :=
  if s.sag.state != .pausing || !s.sag.stopped then s else
  let s := { s with sk := s.sk.mapV fun (k : Skein) => if k.power == Power.ready then { k with power := .retained } else k }
  if s.sag.skipImage then s.enterHold
  else
    let (g, s) := s.gatherImage
    let s := s.poke stagingBase g.bytes
    { s with sag := { s.sag with state := .saving, staged := some g } }

/-- SAG_SAVE_DONE (R587): SG_VALID is programmed. -/
def State.sagSaved (s : State) (us : Nat) : State :=
  match s.sag.state, s.sag.staged with
  | .saving, some g =>
    let s := { s with sag := { s.sag with image := some { g with valid := true }, staged := none, lastUs := min 0xFFFF us,
                                          lastKib := min 0xFFFF ((g.len + 1023) / 1024) } }
    ((s.count pgSAG 0 1).raise pgSAG 1 g.len).keepWritten.enterHold
  | _, _ => s

/-- SAG_RECOVERY (R592): not once PWR_EN has fallen (R673). A save in progress completes first. -/
def State.sagRecovers (s : State) : State :=
  if !s.power.pg || !s.power.pwrEn then s
  else match s.sag.state with
    | .pausing | .saving => { s with sag := { s.sag with recovered := true } }
    | .hold => s.beginResume
    | _ => s

/-- SAG_HOLD_TIMEOUT (R593): the job stops, and the module stays in HOLD. -/
def execSagHoldTimeout (s : State) : Host.Outcome State Fault Refusal :=
  .next (
    if s.sag.state != .hold || s.sag.timedOut then s else
    let s := { s with sag := { s.sag with timedOut := true } }
    let s := ((s.latchErr pgSAG 0x0601 (unitInfo pgSAG)).stopUnit 0x0601 0).selfFailed 0x0601
    (s.count pgSAG 2 1).raise pgSAG 4 0)

/-- SAG_ERASE_DONE (R595, R666): the area is ready again, and an abandoned capacitor test is requested once more. -/
def execSagEraseDone (s : State) : Host.Outcome State Fault Refusal :=
  .next (
    if s.sag.state != .erasing then s else
    State.sagArmed { s with sag := { s.sag with image := none, kept := false, skipImage := false } })

/-- CAP_TEST_ABANDON (R598, R664, R666): the bank is reconnected, the test ends with 0x0903, and the waiting requests are examined. -/
def execCapTestAbandon (s : State) : Host.Outcome State Fault Refusal :=
  .next s.abandonCapTest

/-! ### Skeins that become ready (R352, R592) -/

/-- SKEIN_READY (R351, R352, R592): a woken skein is cleared, loaded and ready; one that resumes goes on where it stopped. -/
def State.skeinReady (s : State) (k : Nat) : State :=
  let sk := s.skein k
  match sk.power with
  | .waking => if s.paused then s else (s.wakeSkein k).issueSkeinCopies k
  | .resuming =>
    let s := s.setSkein k { sk with power := .ready }
    if s.sag.state == .resuming && s.allReady then s.finishResume else s
  | _ => s

/-! ### Reset and power-on (R578, R594, R673–R678, R688) -/

/-- VRST_RESET (R594, R595, R673): the module resets and is unpowered; an image that was being written stays incomplete. -/
def execVrstReset (s : State) : Host.Outcome State Fault Refusal :=
  .next (
    if !s.power.pg then s else
    let img := if s.sag.state == .saving then s.sag.staged else if s.sag.skipImage && !s.sag.kept then none else s.sag.image
    let s := State.resetModule { s with sag := { s.sag with image := img } }
    { s with power := { s.power with pwrEn := false, switchOpen := false, openByVin := false } })

/-- The module as it is without power. -/
def State.powerDown (s : State) : State :=
  let s := s.resetModule
  { s with power := { PowerSt.reset with slotId := s.power.slotId } }

/-- PWR_EN_FALL (R578, R673, R687): with PG high the module runs on its bank until VRST, else it is unpowered at once. -/
def execPwrEnFall (s : State) : Host.Outcome State Fault Refusal :=
  .next (
    if !s.power.pwrEn then s
    else if s.power.pg then { s with power := { s.power with pwrEn := false, switchOpen := true, coolantStop := false } }
    else s.powerDown)

/-- VIN_LOW_BEFORE_PG (R578). -/
def execVinLowBeforePg (s : State) : Host.Outcome State Fault Refusal :=
  .next (if s.power.pwrEn && !s.power.pg then s.powerDown else s)

/-- Event E10 of a restored session (R488, R510). -/
def State.restoreE10 (s : State) (i : Nat) : State := s.resyncNeeded i

/-- An operation resumes from its saved journal offset (R510). -/
def BulkOp.resume (o : BulkOp) : BulkOp := if o.live then { o with sent := o.journal, ended := none, window := [] } else o

/-- The sag-save image at power-on (R510, R594): used, or ignored and counted. MEMBERSHIP sessions are dropped (R554). -/
def State.judgeImage (s : State) : State :=
  match s.sag.image with
  | none => s
  | some g =>
    if g.good then
      let sessions := g.sessions.filter fun kv => kv.2.kind != 1
      let s := { s with
        sag := { s.sag with kept := true },
        wear := { s.wear with history := s.wear.history ++ g.wear },
        mrn := { s.mrn with sessions := sessions, ops := g.ops.map BulkOp.resume, origins := g.origins, cache := g.cache } }
      -- the sending operations go on from their journals; what they send waits for the resync
      let s := (sessions.map (·.1)).foldl State.restoreE10 s
      (g.ops.map (·.id)).foldl State.pump s
    else State.count { s with sag := { s.sag with image := none } } pgSAG 4 1

/-- The last steps of power-on (R578): memories are cleared, the sag-save image is handled, PG goes high, and TAMPER_N is judged. -/
def State.bringUp (s : State) (chan0 chan1 : W32) : State :=
  let s := (s.setLpd 0 { s.lpdOf 0 with chanUp := chan0 }).setLpd 1 { s.lpdOf 1 with chanUp := if s.hasB then chan1 else 0 }
  let s := { s with power := { s.power with pg := true }, sag := { s.sag with state := .armed } }
  let s := s.judgeImage
  if s.power.tamperLvl then s else s.runTamper 0

/-- Every fitted channel has trained (R361, R363). -/
def State.trained (s : State) (chan0 chan1 : W32) : Bool := chan0 == 0xFFFFFFFF && (!s.hasB || chan1 == 0xFFFFFFFF)

/-- The packages with a channel that has not trained (R360, R363). -/
def State.untrained (s : State) (chan0 chan1 : W32) : List Nat :=
  let bad (q : Nat) (c : W32) : List Nat := ((List.range 32).filter fun i => !(bit c.toNat i)).map fun i => packageOf (32 * q + i)
  ((bad 0 chan0) ++ (if s.hasB then bad 1 chan1 else [])).eraseDups

/-- A power-on step fails: PG stays low, and the step goes to the management port (R578), of the training with its packages (R363). -/
def State.powerFail (s : State) (step : Nat) (pkgs : List Nat) : State :=
  { s with power := { s.power with failed := true, failStep := some step, failPkgs := pkgs } }

/-- POWER_ON (R578, R588, R677, R678, R688): the sequence from PWR_EN high to PG high, unless a step fails or the boot ROM listens for an
image. -/
def execPowerOn (u : PowerUp) (s : State) : Host.Outcome State Fault Refusal :=
  .next (
    if s.power.pwrEn || s.power.pg || u.vin < 40000 then s else
    let s := s.powerDown
    let s := { s with trd := { s.trd with ringIn := u.ring } }
    let s := { s with power := { s.power with pwrEn := true, slotId := u.slot.toNat, tamperLvl := u.tamperHigh, vin := u.vin % 65536,
                                              inlet := u.inlet } }
    if 450 < u.inlet then s.powerFail 0 [] else
    let s := s.bootRom
    if s.trust.recovery then s
    else
    let s := s.loadTable u.table
    match u.failStep with
      | some i => s.powerFail i (if i == 3 then s.untrained u.chan0 u.chan1 else [])
      | none => if s.trained u.chan0 u.chan1 then s.bringUp u.chan0 u.chan1 else s.powerFail 3 (s.untrained u.chan0 u.chan1))

/-- BOOT (R603): the boot ROM after a reset that left the module powered, and the rest of the sequence. -/
def execBoot (s : State) : Host.Outcome State Fault Refusal :=
  .next (
    if !s.power.pwrEn || s.power.pg || s.power.failed || s.trust.recovery then s else
    let s := s.bootRom
    if s.trust.recovery then s else s.bringUp 0xFFFFFFFF 0xFFFFFFFF)

end Sys2Proof.Machine
end

