-- ==== Sys2Proof/Machine/JobCheck.lean ====
section
/-!
DEFINITION. The checks of a job load (R3, R13, R45, R49, R171, R187, R205, R215–R217, R220, R325, R331, R340, R395, R424, R426–R430, R449,
R450, R454, R465, R517, R530, R538, R541, R544, R561, R562, R574, R579, R616, R619, R653, R692), in the order in which `loadRefusal` asks them.
-/
namespace Sys2Proof.Machine

/-! ### What the module has (R7, R8, R13, R626) -/

/-- A unit is on the module and in service. -/
def State.inService (s : State) (page : Nat) : Bool := s.pagePresent page && !(s.page page).off

/-- Bytes that two ranges share. -/
def sharedLen (a n b m : Nat) : Nat := min (a + n) (b + m) - max a b

/-- The memories in which a job may place data, as far as the variant backs them: stratum memory below each descriptor area, module memory,
the pools, and the quoin SRAMs without the sag staging region and the treadle area (R7–R9, R330, R543, R589). -/
def State.memories (s : State) : List (Nat × Nat) :=
  (((List.range 4).filter s.diePresent).map fun d => (d * stratumSize, 0x0003FF000000))
    ++ [(moduleBase, if s.hasB then 0x008000000000 else 0x004000000000)]
    ++ (((List.range 72).filter s.skeinPresent).map fun k => (poolBase k, 0x400000))
    ++ [(quoinBase, stagingBase - quoinBase), (treadleAreaEnd, quoinBase + 0x08000000 - treadleAreaEnd)]

/-- Every byte of a range lies in one of the job's memories, and the variant backs it, whatever dies are awake. -/
def State.fits (s : State) (a n : Nat) : Bool := (s.memories.map fun r => sharedLen a n r.1 r.2).sum == n

def inStratum (a : Nat) : Bool := decide (a < 4 * stratumSize)
def inModule (a : Nat) : Bool := regionOf a == .module
def inPool (a : Nat) : Bool := match regionOf a with | .pool _ => true | _ => false
def inQuoin (a : Nat) : Bool := match regionOf a with | .quoin _ => true | _ => false

/-- The generation knots of the bundle's mapping. -/
def JobBundle.isGenKnot (b : JobBundle) (k : Nat) : Bool :=
  match b.mapping with
  | some m => decide (m.genKnot ≤ k) && decide (k < m.genKnot + 8)
  | none => false

/-- Every queue that some image names, once. -/
def JobBundle.queueNumbers (b : JobBundle) : List Nat := (b.images.flatMap fun i => i.queues.map (·.queue)).eraseDups

/-- The stations that declare a queue in a role, with what they declare. -/
def JobBundle.usesOf (b : JobBundle) (q : Nat) (producer : Bool) : List (Nat × QueueDecl) :=
  b.images.flatMap fun i => (i.queues.filter fun u => u.queue == q && u.producer == producer).map fun u => (i.number, u.decl)

def JobBundle.queueDecls (b : JobBundle) : List (Nat × QueueDecl) :=
  b.queueNumbers.filterMap fun q => match b.usesOf q true ++ b.usesOf q false with | u :: _ => some (q, u.2) | [] => none

/-- Slivers of a station of the bundle. -/
def JobBundle.slivers (b : JobBundle) (station : Nat) : Nat := match b.image station with | some i => i.spindles.length | none => 0

/-- The ranges that the mapping places in memory (R574). -/
def JobBundle.placed (s : State) (b : JobBundle) : List (Nat × Nat) :=
  let ck := match b.ckpt with | some t => t.entries.map fun e => (e.addr, e.bytes) | none => []
  let areas := match b.mapping with | some m => m.areas.map fun a => (a, m.areaBytes) | none => []
  let qs := b.queueDecls.flatMap fun (_, d) => [(d.ringBase, d.depth * d.slotBytes), (d.spillBase, d.spillDepth * d.slotBytes)]
  let bob := match b.mapping with
    | some m => m.pools.flatMap fun (p : BobbinPool) =>
        let per := p.size * b.slivers p.station
        [(p.stratumBase, per * p.stratumCount), (p.moduleBase, per * (p.count - p.localCount - p.stratumCount))]
    | none => []
  (ck ++ areas ++ qs ++ bob ++ [(s.snap.poolBase, 65536 * s.snap.poolPages)]).filter fun r => r.2 != 0

/-! ### Capacity and absent units (R574, R13) -/

def placedIn (p : Nat → Bool) (l : List (Nat × Nat)) : Nat := ((l.filter fun r => p r.1).map (·.2)).sum

/-- MOD_SPINDLES. -/
def State.spindleCount (s : State) : Nat := if s.isH then 2304 else 4608

def State.overCapacity (s : State) (b : JobBundle) : Bool :=
  let l := b.placed s
  (b.images.any fun i => decide (s.spindleCount < i.spindles.length))
    || decide ((if s.isH then 2 else 4) * stratumSize < placedIn inStratum l)
    || decide ((if s.hasB then 512 else 256) * 2 ^ 30 < placedIn inModule l)

/-- The instructions of an image's code. -/
def StationImage.instrs (img : StationImage) : List SpInstr :=
  (List.range (img.code.length / 8)).filterMap fun i => decodeSp (BitVec.ofNat 64 (leAt img.code (8 * i) 8))

def StationImage.defers (img : StationImage) : Bool := img.instrs.any fun i => match i with | .bmmDefer _ => true | _ => false
def StationImage.samples (img : StationImage) : Bool := img.instrs.any fun i => match i with | .rngSample _ => true | _ => false

/-- Knots that an image names: those of its list, its start condition's, and its prologue's trigger (R324, R340, R347). -/
def StationImage.knotsNamed (img : StationImage) : List Nat :=
  img.knots.map (·.knot) ++ (match img.start with | .knot k _ => [k] | _ => [])
    ++ if img.prologue.isEmpty then [] else [img.trigKnot]

/-- Skeins that an image names: those of its spindles, and those for which it lists a transfer or a spill quota (R45, R205). -/
def StationImage.skeinsNamed (img : StationImage) : List Nat :=
  img.spindles.map skeinOf ++ img.quota.map (·.1) ++ img.spillQuota.map (·.1)

/-- Queues that an image names: those of its list, and those that its prologue warms (R331, R347). -/
def StationImage.queuesNamed (img : StationImage) : List Nat :=
  img.queues.map (·.queue) ++ (img.prologue.flatMap (·.2)).filterMap fun (p : PrologueEntry) =>
    match p with | .warm q => some q | .copy _ _ => none

def State.imageAbsent (s : State) (img : StationImage) : Bool :=
  (img.spindles.any fun n => !(s.inService (pgSPD n)))
    || (img.skeinsNamed.any fun k => decide (k < 72) && !(s.inService (pgSKN k)))
    || (img.knotsNamed.any fun k => decide (k ≤ 8191) && !(s.inService (pgKNT (k / 2048))))
    || (img.queuesNamed.any fun q => decide (q < 2 ^ 20) && !(s.inService (pgQUE (dieOfQueue q))))
    || (img.trackers.any fun t => decide (t.tracker / 256 < 72) && !(s.inService (pgPLY (t.tracker / 256))))
    || (img.samples && img.spindles.any fun n => !(s.inService (pgSMP (dieOfSpindle n))))

/-- Stratum memory of a die that is fitted and out of service (R626). -/
def State.stratumOff (s : State) (r : Nat × Nat) : Bool :=
  inStratum r.1 && s.diePresent (r.1 / stratumSize) && (s.page (pgSTR (r.1 / stratumSize))).off

/-- Module memory of a quoin whose controllers are out of service (R626). -/
def State.moduleOff (s : State) (r : Nat × Nat) : Bool :=
  (List.range 2).any fun q => overlaps r.1 r.2 (moduleBase + q * 0x4000000000) 0x4000000000 && (s.page (pgLPD q)).off

/-- A plane's reduction engine, out of service, that a collective table needs (R457, R626). -/
def State.reductionOff (s : State) (b : JobBundle) : Bool :=
  !b.colls.isEmpty && ((s.page (pgRED 0)).off || (s.hasB && (s.page (pgRED 1)).off))

def State.unitAbsent (s : State) (b : JobBundle) : Bool :=
  b.images.any s.imageAbsent || ((b.placed s).any fun r => s.stratumOff r || s.moduleOff r) || s.reductionOff b

/-! ### Conflicts (R331, R340, R692) -/

/-- Two images give a knot different initial values; the generation knots are judged under R395. -/
def JobBundle.knotConflict (b : JobBundle) : Bool :=
  let all := (b.images.flatMap (·.knots)).filter fun d => !(b.isGenKnot d.knot)
  all.any fun d => all.any fun e => d.knot == e.knot && d.init != e.init

def JobBundle.queueConflict (b : JobBundle) (q : Nat) : Bool :=
  match b.usesOf q true, b.usesOf q false with
  | [p], [c] => p.2 != c.2 || p.2.producer != p.1 || p.2.consumer != c.1
  | _, _ => true

def JobBundle.conflict (b : JobBundle) : Bool :=
  !decide (b.images.map (·.number)).Nodup || b.knotConflict || b.queueNumbers.any b.queueConflict

/-! ### Invalid declarations (R187, R324, R331, R692) -/

/-- A code book (R59). -/
def bookOk (bs : Bytes) : Bool :=
  bs.length == 16 && leAt bs 0 1 == 0 && leAt bs 8 1 == 0x80 && (List.range 16).all fun i => i == 8 || leAt bs i 1 != 0x80

/-- A binding within its ranges (R187, R227). -/
def Binding.ok (d : Binding) : Bool :=
  [0x04, 0x03, 0x01, 0x02, 0x05, 0x11, 0x12, 0x20].contains d.format && (d.format != 0x02 || bookOk d.book)
    && decide (d.col0 < 2 ^ 24) && decide (d.coln < 2 ^ 24) && decide (d.tensor < 2 ^ 32) && decide (d.outShift ≤ 15) && decide (d.table ≤ 3)
    && decide (d.state0 ≤ 15) && decide (1 ≤ d.exp0) && decide (d.exp0 ≤ 0xFE) && decide (-32768 ≤ d.anchor0) && decide (d.anchor0 ≤ 32767)
    && decide (d.stepTiles < 2 ^ 24) && decide (d.spillMax ≤ 3072) && decide (d.chBase < 4096) && decide (d.chCount ≤ 4096)
    && decide (d.rsMode ≤ 3) && decide (-128 ≤ d.rsTarget) && decide (d.rsTarget ≤ 127)

/-- Queue-descriptor fields within R331. -/
def State.queueFieldsOk (s : State) (b : JobBundle) (d : QueueDecl) : Bool :=
  let ring := d.depth * d.slotBytes
  let spill := d.spillDepth * d.slotBytes
  ((Fmt.ofCode d.format).isSome || d.format == 0x30) && decide (d.key ≤ 2) && decide (d.keyShift ≤ 23) && decide (1 ≤ d.depth) && decide (d.depth ≤ 65536)
    && d.slotBytes % 64 == 0 && decide (1472 ≤ d.slotBytes) && decide (d.slotBytes ≤ 131072)
    && d.ringBase % 64 == 0 && s.fits d.ringBase ring
    && !(b.images.any fun i => i.spindles.any fun n => overlaps d.ringBase ring (poolBase (skeinOf n) + i.codeBase) i.codeLen)
    && (if d.spill then decide (1 ≤ d.spillDepth) && decide (d.spillDepth ≤ 16777216) && d.spillBase % 64 == 0 && inModule d.spillBase
          && s.fits d.spillBase spill
        else d.spillBase == 0 && d.spillDepth == 0)

/-- The PRED conditions from station `n` on lead to an end. -/
def JobBundle.predEnds (b : JobBundle) : Nat → Nat → Bool
  | 0, _ => false
  | fuel + 1, n =>
    match b.image n with
    | some i => (match i.start with | .pred p => b.predEnds fuel p | _ => true)
    | none => true

def JobBundle.startOk (b : JobBundle) (img : StationImage) : Bool :=
  match img.start with
  | .atLoad => true
  | .knot k _ => img.knots.any fun d => d.knot == k
  | .pred p => p != img.number && (b.image p).isSome && b.predEnds (b.images.length + 1) img.number

def StationImage.prologueOk (img : StationImage) : Bool :=
  img.prologue.isEmpty || ((match img.start with | .pred _ => true | _ => false) && img.prologue.all fun e => decide (e.2.length ≤ 64))

def StationImage.codeOk (img : StationImage) : Bool :=
  let inside (e : Nat) : Bool := e % 8 == 0 && decide (e < img.codeLen)
  decide (img.codeLen ≤ 0x80000) && decide (img.code.length ≤ img.codeLen) && decide (img.codeBase + img.codeLen ≤ 0x400000)
    && inside img.entry && (match img.deferEntry with | some e => inside e | none => true)

def JobBundle.imageOk (s : State) (b : JobBundle) (img : StationImage) : Bool :=
  decide (img.number ≤ 4095) && !img.spindles.isEmpty && decide img.spindles.Nodup && img.codeOk && b.startOk img && img.prologueOk
    && (img.knots.all fun d => decide (d.knot ≤ 8191))
    && (img.queues.all fun u => decide (u.queue < 2 ^ 20) && s.queueFieldsOk b u.decl)
    && (img.trackers.all fun t => decide (t.tracker / 256 < 72) && t.bind.station == img.number && t.bind.ok)
    && img.banks.length == 16 && decide (img.deferDepth ≤ 256) && decide (img.deferBank ≤ 15)
    && (img.spindles.all fun n => decide (1 ≤ img.quota.get 0 (skeinOf n))) && decide (1 ≤ img.timeout) && decide (img.timeout ≤ 4294967295)

/-! ### Placement (R325) -/

/-- Station `m` comes before `n` in `n`'s chain of PRED conditions. -/
def JobBundle.before (b : JobBundle) (m : Nat) : Nat → Nat → Bool
  | 0, _ => false
  | fuel + 1, n =>
    match b.image n with
    | some i => (match i.start with | .pred p => p == m || b.before m fuel p | _ => false)
    | none => false

/-- A spindle is in the lists of stations that form no chain. -/
def JobBundle.misplaced (b : JobBundle) : Bool :=
  let fuel := b.images.length + 1
  b.images.any fun i => b.images.any fun j => i.number != j.number && (i.spindles.any fun n => j.spindles.contains n)
    && !(b.before i.number fuel j.number || b.before j.number fuel i.number)

/-! ### Quotas, trackers, policy tables, deferral (R45, R49, R171, R205, R215–R217, R220) -/

/-- The images with a spindle on a skein. -/
def JobBundle.onSkein (b : JobBundle) (k : Nat) : List StationImage := b.images.filter fun i => i.spindles.any fun n => skeinOf n == k

def JobBundle.skeins (b : JobBundle) : List Nat := (b.images.flatMap fun i => i.spindles.map skeinOf).eraseDups

def JobBundle.overQuota (b : JobBundle) : Bool :=
  b.skeins.any fun k => decide (256 < ((b.onSkein k).map fun i => i.quota.get 0 k).sum)

def JobBundle.trackerTwice (b : JobBundle) : Bool := !decide (b.images.flatMap fun i => i.trackers.map (·.tracker)).Nodup

/-- A rule word of a table with `states` states (R215). Of a word with VALID = 0, which is skipped, no other bit is looked at (whether such a
word is refused the spec does not say: DESIGN CHOICE, log entry 109). -/
def ruleOk (states w : Nat) : Bool :=
  !(bit w 63) || (decide (field w 59 4 < states) && decide (field w 56 3 ≤ 5) && decide (field w 46 2 ≤ 2) && field w 0 46 == 0)

/-- A policy-table image (R216). -/
def policyOk (t : Bytes) : Bool :=
  let states := leAt t 1 1
  t.length == 1088 && leAt t 0 1 == 1 && decide (1 ≤ states) && decide (states ≤ 16) && leAt t 7 1 == 0 && leAt t 11 1 == 0
    && leAt t 15 1 == 0 && leAt t 16 48 == 0
    && (List.range 16).all fun st => (rulesOf t st).all fun w => if decide (st < states) then ruleOk states w else w == 0

/-- Slots of the ply units, by skein, with a table placed on one: shared where it lies already, else in the lowest free slot of 1–3. -/
def placeTable (slots : Tbl (Tbl Bytes)) (k : Nat) (t : Bytes) : Option (Tbl (Tbl Bytes)) :=
  let mine := slots.get [] k
  if t == defaultTable || mine.any fun e => e.2 == t then some slots
  else match [1, 2, 3].find? fun i => (mine.find i).isNone with
    | some i => some (slots.put k (mine.put i t))
    | none => none

/-- Every table of every image on every ply unit that holds a tracker of the image (R217). -/
def JobBundle.placeTables (b : JobBundle) : Option (Tbl (Tbl Bytes)) :=
  let jobs := b.images.flatMap fun i => ((i.trackers.map fun t => t.tracker / 256).eraseDups).flatMap fun k => i.tables.map fun t => (k, t)
  jobs.foldl (fun (acc : Option (Tbl (Tbl Bytes))) (kt : Nat × Bytes) => acc.bind fun sl => placeTable sl kt.1 kt.2) (some [])

def JobBundle.policyBad (b : JobBundle) : Bool :=
  (b.images.any fun i => decide (3 < i.tables.length) || (i.tables.any fun t => !(policyOk t))
      || i.trackers.any fun t => decide (i.tables.length < t.bind.table))
    || b.placeTables.isNone

/-- The channel ranges of the trackers bound on a ply unit. -/
def JobBundle.channelRanges (b : JobBundle) (k : Nat) : List (Nat × Nat) :=
  (b.images.flatMap fun i => (i.trackers.filter fun t => t.tracker / 256 == k).map fun t => (t.bind.chBase, t.bind.chCount)).filter
    fun r => r.2 != 0

def rangesOverlap : List (Nat × Nat) → Bool
  | [] => false
  | r :: rest => rest.any (fun q => overlaps r.1 r.2 q.1 q.2) || rangesOverlap rest

/-- The smallest spill quota that an image declares; zero where it declares none (R205). -/
def StationImage.leastSpill (img : StationImage) : Nat :=
  match img.spillQuota.map (·.2) with
  | [] => 0
  | q :: qs => qs.foldl Nat.min q

/-- SPILL_QUOTA (R205, R220). -/
def JobBundle.spillBad (b : JobBundle) : Bool :=
  ((List.range 72).any fun k => decide (3072 < (b.images.map fun i => i.spillQuota.get 0 k).sum))
    || (b.images.any fun i => i.trackers.any fun t => decide (i.leastSpill < t.bind.spillMax))
    || (List.range 72).any fun k =>
        let l := b.channelRanges k
        rangesOverlap l || l.any fun r => decide (4096 < r.1 + r.2)

/-- BMM.DEFER in an image that does not declare a deferred entry, a depth, and a ring bank of the core's. -/
def StationImage.deferBad (img : StationImage) : Bool :=
  img.defers && (img.deferEntry.isNone || img.deferDepth == 0
    || (match img.banks[img.deferBank]? with | some k => k.owner != .core | none => true))

/-! ### The mapping (R395, R418–R430, R541, R561, R562, R653) -/

/-- The job's membership count: the ranks that the membership table holds, each once, since a FAILED entry and the spare that took its rank
over both name it (R430, R549); or one module. -/
def State.memberCount (s : State) : Nat := max 1 (ranksOf s.trd.members).length

def stagesOk (layers : Nat) : Nat → List (Nat × Nat) → Bool
  | next, [] => next == layers
  | next, (first, count) :: rest => first == next && stagesOk layers (next + count) rest

/-- The pipeline stage of a rank (R426). -/
def Mapping.stage (m : Mapping) : Nat := m.rank / (max 1 m.X * max 1 m.Q) % max 1 m.P

def JobBundle.everyImageDeclares (b : JobBundle) (k : Nat) : Bool := b.images.all fun i => i.knots.any fun d => d.knot == k

def JobBundle.genKnotsOk (b : JobBundle) (m : Mapping) : Bool :=
  m.genKnot % 8 == 0 && decide (m.genKnot ≤ 8184) && (List.range 8).all fun j =>
    b.images.all fun i => (i.knots.any fun d => d.knot == m.genKnot + j) && i.knots.all fun d => d.knot != m.genKnot + j || d.init == 0

/-- The working copies that an area must hold. -/
def Mapping.copiesFit (m : Mapping) : Bool :=
  m.tensors.all fun e =>
    decide (e.fwdOff + e.tiles * e.stride ≤ m.areaBytes)
      && (e.bwdFmt == 0 || (match Fmt.ofCode e.bwdFmt with
        | some f => decide (e.bwdOff + e.tiles * roundUp (0x1C0 + f.payloadLen) 64 ≤ m.areaBytes)
        | none => false))

def State.areasOk (s : State) (m : Mapping) : Bool :=
  m.areas.length == 3 && (m.areas.all fun a => a % 65536 == 0 && (inStratum a || inModule a) && s.fits a m.areaBytes)
    && !(rangesOverlap (m.areas.map fun a => (a, m.areaBytes))) && m.copiesFit

def JobBundle.poolOk (b : JobBundle) (p : BobbinPool) : Bool :=
  decide (1 ≤ p.count) && decide (p.count ≤ 254) && decide (p.localCount + p.stratumCount ≤ p.count) && decide (1 ≤ p.slots)
    && decide (p.slots ≤ 255) && p.releaseKnots.length == p.count && !(p.stall && p.releaser == p.station)
    && (p.decisionKnot :: p.slotKnot :: p.releaseKnots).all b.everyImageDeclares

/-- The checkpoint table (R378, R561, R562). -/
def State.ckptOk (s : State) (t : CkptTable) : Bool :=
  let ranges := t.entries.map fun e => (e.addr, e.bytes)
  t.count == t.entries.length && decide (1 ≤ t.count) && decide (t.count ≤ 4096) && decide (t.flags ≤ 1) && t.resumeAddr % 64 == 0
    && decide (t.resumeLen ≤ 65536)
    && (t.entries.all fun e => (e.kind == 1 || e.kind == 2) && e.bytes % 65536 == 0 && e.addr % 65536 == 0
        && !(s.entryBad s.fitted (e.addr, e.bytes / 65536)))
    && !(rangesOverlap ranges) && decide (t.entries.map fun e => (e.kind, e.name, e.first)).Nodup

/-- A write or read of the load that the staging region and the treadle area refuse (R543, R589): job data, the checkpoint table's set entries
at SNP_SET_BASE, and its resume area. -/
def State.loadReserved (s : State) (b : JobBundle) : Bool :=
  (b.data.any fun d => inStaging d.1 d.2.length)
    || match b.ckpt with
      | some t => inStaging (quoinBase + s.snap.setBase) (16 * t.entries.length) || (t.resumeLen != 0 && inStaging t.resumeAddr t.resumeLen)
      | none => false

/-- RO_VOTE_LEAD, once a ROSTER has given it, must be the mapping's (R541); a SOLO job's votes never travel. -/
def State.leadDiffers (s : State) (m : Mapping) : Bool := !m.solo && s.trd.compensated && m.voteLead != s.trd.voteLead

def State.mappingOk (s : State) (b : JobBundle) (m : Mapping) : Bool :=
  m.version == 1 && m.reserved == 0 && decide (1 ≤ m.P) && decide (m.P ≤ 128) && decide (1 ≤ m.Q) && decide (m.Q ≤ 64) && decide (1 ≤ m.X)
    && decide (m.X ≤ 1024) && decide (1 ≤ m.voteLead) && decide (m.voteLead ≤ 4096) && decide (1 ≤ m.deferWarn) && decide (m.deferWarn ≤ 255)
    && decide (m.experts ≤ 1024)
    && m.D * m.P * m.X * m.Q == s.memberCount
    && m.stages.length == m.P && stagesOk m.layers 0 m.stages
    && m.expertOf.length == m.experts && m.expertOf.zipIdx.all (fun xe => xe.1 == xe.2 % m.X)
    && s.areasOk m && b.genKnotsOk m && decide (1 ≤ m.buildInc.toNat) && decide (m.buildInc.toNat < 2 ^ 63)
    && !(m.stage == 0 && m.admitRing == 0) && m.pools.all b.poolOk && !(s.leadDiffers m)

/-- A mapping places bytes in the extended trace store while it is on, or in the dump buffer (R653, R655). -/
def State.inTraceStore (s : State) (b : JobBundle) : Bool := (b.placed s).any fun r => s.inTraceRange r.1 r.2

def State.mappingBad (s : State) (b : JobBundle) : Bool :=
  (match b.mapping with | some m => !(s.mappingOk b m) | none => false)
    || (match b.ckpt with | some t => !(s.ckptOk t) | none => false) || s.inTraceStore b

/-! ### Collective tables (R449, R450, R454, R465) -/

/-- Chunks that cover `tiles` tiles in ascending contiguous order. -/
def chunksOk (tiles : Nat) : Nat → List Chunk → Bool
  | next, [] => next == tiles
  | next, c :: rest => c.first == next && chunksOk tiles (next + c.count) rest

/-- Format pairings of R454; FAST never with the transfer form. -/
def CollRec.formatsOk (r : CollRec) : Bool :=
  let known (c : Nat) : Bool := c == 0x30 || (Fmt.ofCode c).isSome
  known r.inFmt && known r.outFmt &&
  match r.kind with
  | some .reduceScatter | some .allReduce =>
    [0x11, 0x12, 0x20, 0x30].contains r.inFmt && [0x11, 0x12, 0x20, 0x30].contains r.outFmt
      && !(r.fast && (r.inFmt == 0x30 || r.outFmt == 0x30))
  | some _ => r.inFmt == r.outFmt && !(r.fast && r.inFmt == 0x30)
  | none => false

def CollRec.groupOk (r : CollRec) (ranks : Nat) : Bool :=
  decide (r.group.map (·.rank)).Nodup && (r.group.all fun c => decide (c.rank < ranks))
    && !r.group.isEmpty && chunksOk r.tiles 0 r.group
    && (match r.kind with
      | some .send | some .recv => r.group.length == 2
      | _ => true)

/-- An address of the collective on its boundary in memory that the variant backs. -/
def State.collAddr (s : State) (a n : Nat) : Bool := a % 64 == 0 && s.fits a (max 64 n)

/-- The bytes that `n` images of a format take at a stride: the last one is as long as its payload makes it, or a stride, whichever is
more. -/
def spanOf (n stride fmt : Nat) : Nat :=
  let len := match Fmt.ofCode fmt with | some f => roundUp (0x1C0 + f.payloadLen) 64 | none => 98752
  if n == 0 then 0 else (n - 1) * stride + max stride len

/-- Every address and stride of a record, over the images that module `rank` reads and writes (R451, R465); how many images a SEND-RECV pair
moves stands in its header only. -/
def State.collPlaced (s : State) (r : CollRec) (rank : Nat) : Bool :=
  let own := ((r.group.find? fun c => c.rank == rank).map (·.count)).getD 0
  let src (n : Nat) : Bool := s.collAddr r.src (spanOf n r.srcStride r.inFmt)
  let dst (n : Nat) : Bool := s.collAddr r.dst (spanOf n r.dstStride r.outFmt)
  r.srcStride % 64 == 0 && r.dstStride % 64 == 0 && s.collAddr r.stat 64
    && (match r.kind with
      | some .send => s.collAddr r.src 64 && s.collAddr r.dst 0
      | some .recv => s.collAddr r.dst 64 && s.collAddr r.src 0
      | some .allGather => src own && dst r.tiles
      | some .allReduce => src (r.mult * r.tiles) && dst r.tiles
      | _ => src (r.mult * r.tiles) && dst own)

def State.collBad (s : State) (b : JobBundle) (r : CollRec) : Bool :=
  let ranks := match b.mapping with | some m => m.D * m.P * m.X * m.Q | none => 1
  let rank := match b.mapping with | some m => m.rank | none => s.trd.rank
  let declared (k : Nat) : Bool := match b.image r.station with | some i => i.knots.any fun d => d.knot == k | none => false
  r.reserved != 0 || decide (2 < r.modeCode) || !r.formatsOk || !(r.groupOk ranks) || r.mult == 0
    || decide (2 ^ 19 < r.group.length * r.mult) || !(declared r.trigKnot) || !(declared r.doneKnot)
    || (b.colls.any fun q => q.id == r.id && q.group != r.group) || !(s.collPlaced r rank) || r.timeout == 0

/-! ### The job's events, and a manager plan (R538, R544) -/

def State.eventsBad (s : State) (b : JobBundle) : Bool :=
  let solo := match b.mapping with | some m => m.solo | none => false
  let lead := match b.mapping with | some m => m.voteLead | none => 0
  let kept := s.evt.entries.map (·.2)
  (b.events.any fun e => !(mayWrite .job solo e.action))
    || !(tableOk lead (fun k => b.images.any fun i => i.knots.any fun d => d.knot == k) (kept ++ b.events))

/-- A membership entry of a plan within R543. -/
def Member.ok (m : Member) : Bool :=
  decide (m.ring ≤ 126) && decide (1 ≤ m.pos) && decide (m.pos ≤ 127) && decide (m.state ≤ 5) && (m.spare == (m.rank == 0xFFFF))

def Plan.ok (p : Plan) : Bool :=
  p.version == 1 && p.flagsRsv == 0 && p.reserved == 0 && ((p.top && p.trunk) || decide (p.ring ≤ 126)) && decide (1 ≤ p.rings) && decide (p.rings ≤ 127)
    && decide (250 ≤ p.beatNs) && decide (p.beatNs ≤ 1000000) && decide (1 ≤ p.voteLead) && decide (p.voteLead ≤ 4096)
    && decide (p.schedule.length ≤ 1024) && (p.trunk || p.trunkLinks.all (· == 0))
    && p.members.all Member.ok && decide ((p.members.filter fun m => !m.spare).map (·.rank)).Nodup
    && decide (p.members.map fun m => (m.ring, m.pos)).Nodup

/-- The schedule of a plan: COMMIT, SNAP_OPEN, SAMPLE and MAINT_OPEN entries that R538 accepts. -/
def State.scheduleBad (s : State) (p : Plan) : Bool :=
  (p.schedule.any fun e => !(mayWrite .manager false e.action))
    || !(tableOk p.voteLead (fun _ => false) (((s.evt.entries.filter fun ie => !ie.2.mgr).map (·.2)) ++ p.schedule))

/-! ### The refusals in order -/

/-- The first condition of a list that holds gives its code. -/
def firstCode : List (Bool × W16) → Option W16
  | [] => none
  | (c, e) :: rest => if c then some e else firstCode rest

def State.jobRefusal (s : State) (b : JobBundle) : Option W16 :=
  let solo := match b.mapping with | some m => m.solo | none => false
  firstCode [
    (s.trust.mgrRole, 0x0806), (!solo && s.trd.link != .synced && s.trd.ringIn, 0x0804),
    (s.overCapacity b, 0x0113), (s.unitAbsent b, 0x0105), (b.conflict, 0x010F), (!(b.images.all fun i => b.imageOk s i), 0x0115),
    (b.misplaced, 0x010E), (b.overQuota, 0x0107), (b.trackerTwice, 0x0106), (b.policyBad, 0x010A), (b.spillBad, 0x010B),
    (b.images.any StationImage.deferBad, 0x0108), (s.mappingBad b, 0x0110), (s.loadReserved b, 0x0305), (b.colls.any fun r => s.collBad b r, 0x0111),
    (s.eventsBad b, 0x0809)]

def State.planRefusal (s : State) (p : Plan) : Option W16 :=
  firstCode [(!s.trust.mgrRole, 0x0806), ((s.page pgMGR).off, 0x0105), (!p.ok, 0x0807), (s.scheduleBad p, 0x0809)]

/-- The code with which every load is refused at present, whatever it brings: the life cycle, a latched tamper source, a loaded job (R3). -/
def State.loadBarred (s : State) : Option W16 :=
  firstCode [(s.trust.fuses.lc != 1 && s.trust.fuses.lc != 2, 0x0705), (s.trust.tamper != 0, 0x0702), (s.job.state != .none, 0x0102)]

/-- The code with which a load is refused, if it is. -/
def State.loadRefusal (s : State) (b : JobBundle) : Option W16 :=
  match s.loadBarred.or <| firstCode [
      (s.power.vinLow != 0, 0x0602), ((s.sag.cap != 0 || s.sag.esr != 0) && decide (s.sag.euMj < 600), 0x0604)] with
  | some e => some e
  | none => match b.plan with
    | some p => s.planRefusal p
    | none => s.jobRefusal b

end Sys2Proof.Machine
end

