-- ==== Sys2Proof/Machine/Reply.lean ====
section
/-!
DEFINITION. The results of CONTROL commands (R493–R498): the command cache's completion, and the order in which RESULTs leave.
-/
namespace Sys2Proof.Machine

/-- PENDING (R497). -/
def stPending : W16 := 0xFFFF

/-- A RESULT (R493). -/
def State.sendResult (s : State) (i : Nat) (cmd : W64) (st : W16) (data : Bytes) : State :=
  s.send i ⟨0x0110, cmd, leBytes 2 st.toNat ++ zeros 2 ++ data⟩

/-- The RESULTs at the head of a session's list that are known leave, in order (R498). -/
def State.sendDue (s : State) (i : Nat) : State :=
  let l := (s.session i).due
  let s := s.setSession i { s.session i with due := l.dropWhile fun d => d.res.isSome }
  (l.takeWhile fun d => d.res.isSome).foldl (fun (s : State) d =>
    match d.res with | some r => s.sendResult i d.cmd r.1 r.2 | none => s) s

/-- A session is owed the RESULT of a command: known already, or once the command completes. -/
def State.owe (s : State) (i : Nat) (cmd : W64) (res : Option (W16 × Bytes)) : State :=
  let x := s.session i
  if res.isNone && x.due.any fun d => d.cmd == cmd && d.res.isNone then s
  else (s.setSession i { x with due := x.due ++ [⟨cmd, res⟩] }).sendDue i

/-- A command completes: its cache entry is DONE, and every open session that delivered a copy gets its RESULT (R496, R497). -/
def State.finishCmd (s : State) (cmd : W64) (st : W16) (data : Bytes) : State :=
  let l := s.mrn.cache
  let done := (l.filter fun e => e.cmd == cmd).map fun (e : CacheEntry) =>
    { e with running := false, status := st, result := data.take 512 }
  -- entries stand in the order in which they completed, RUNNING ones last
  let rest := l.filter fun e => e.cmd != cmd
  let s := { s with mrn := { s.mrn with cache := (rest.filter fun (e : CacheEntry) => !e.running) ++ done ++ (rest.filter fun (e : CacheEntry) => e.running) } }
  let owed := s.mrn.sessions.keysWhere fun (x : Session) => x.due.any fun d => d.cmd == cmd && d.res.isNone
  owed.foldl (fun (s : State) i =>
    let x := s.session i
    (s.setSession i { x with due := x.due.map fun (d : Due) =>
      if d.cmd == cmd && d.res.isNone then { d with res := some (st, data.take 512) } else d }).sendDue i) s

end Sys2Proof.Machine
end

