-- ==== Sys2Proof/Machine/JobLoad.lean ====
section
/-!
DEFINITION. Loading and unloading a job or a manager plan (R2, R187, R217, R221, R244, R340, R351, R376, R377, R395, R544, R562, R568, R594,
R630, R637, R640): the die wakes that a load waits for, what the load writes, and what the unload takes away.
-/
namespace Sys2Proof.Machine

/-! ### What a load writes -/

/-- Every page latch but those of SEC, FUSE and SAG is cleared (R630). -/
def PageHdr.clearErr (h : PageHdr) : PageHdr := { h with errValid := false, errCode := 0, errMore := 0, errInfo := 0 }

/-- Pages whose counters a job load resets (R637). -/
def loadResets (page : Nat) : Bool := [0x32, 0x30, 0x21, 0x22, 0x23, 0x12].contains (pageBlock page).1

/-- The page effects of a job load (R630, R637). -/
def State.loadPages (s : State) : State :=
  let s := s.mapPages fun p h =>
    let h := if p == pgSEC || p == pgFUSE || p == pgSAG then h else h.clearErr
    if loadResets p then h.resetAll else h
  s.resetCounter pgTRD 0x20C

/-- Declared knots at their declared initial values (R340). -/
def JobBundle.knotTable (b : JobBundle) : Tbl Knot :=
  (b.images.flatMap (·.knots)).foldl (fun (t : Tbl Knot) d =>
    t.put d.knot ⟨d.init, true, d.trace || (t.get Knot.reset d.knot).trace⟩) []

/-- The generation knots' values at load (R395). -/
def Mapping.genValues (m : Mapping) : List W64 :=
  let c := m.commits.toNat
  ((List.range 3).map fun j => if c % 3 == j then skValue 1 c 0 else 0)
    ++ [m.commits, BitVec.ofNat 64 (c * m.buildInc.toNat), 0, 0, 0]

def State.writeGenKnots (s : State) (m : Mapping) : State :=
  m.genValues.zipIdx.foldl (fun (s : State) (v, j) => s.setKnot (m.genKnot + j) { s.knot (m.genKnot + j) with value := v }) s

/-- The counts of every queue, reset by a load (R637). -/
def State.queueShadows (s : State) : Tbl Queue :=
  s.queues.filterMap fun kv => let q := kv.2.resetCounts.counts; if q = Queue.reset then none else some (kv.1, q)

/-- The declared queues, OPEN, with the descriptor fields that the load writes (R331); `old` holds the LAST shadows. -/
def JobBundle.queueTable (b : JobBundle) (old : Tbl Queue) : Tbl Queue :=
  b.queueDecls.foldl (fun (t : Tbl Queue) (q, d) => t.put q { t.get Queue.reset q with decl := d, state := 1 }) old

/-- The slot of a binding's table on a ply unit (R217). -/
def tableSlot (slots : Tbl Bytes) (img : StationImage) (table : Nat) : Nat :=
  if table == 0 then 0 else
  let t := img.tables.getD (table - 1) []
  if t == defaultTable then 0 else match slots.find? fun e => e.2 == t with | some e => e.1 | none => 0

/-- A tracker as its binding leaves it (R187); the counters that it held are its LAST shadow (R637). -/
def Tracker.bindTo (old : Tracker) (d : Binding) (slot : Nat) : Tracker :=
  { Tracker.reset with bound := true, bind := d, slot := slot, state := d.state0, exp := d.exp0, anchor := d.anchor0,
                       prevExp := d.exp0, prevAnchor := d.anchor0, last := old.ctr }

/-- The channel entries of a binding: cleared, in HOST mode with the image's factors (R187, R221). -/
def bindChannels (t : TrackerDecl) (chans : Tbl Channel) : Tbl Channel :=
  (List.range t.bind.chCount).foldl (fun (c : Tbl Channel) i =>
    let f := if t.bind.rsMode == 1 then t.factors.getD i 0x3F800000 else 0x3F800000
    c.set Channel.reset (t.bind.chBase + i) { Channel.reset with factor := f, prevFactor := f, nextFactor := f }) chans

def State.bindTracker (s : State) (img : StationImage) (t : TrackerDecl) : State :=
  let k := t.tracker / 256
  let j := t.tracker % 256
  let x := s.skein k
  let old := x.trackers.get Tracker.reset j
  s.setSkein k { x with
    trackers := x.trackers.put j (old.bindTo t.bind (tableSlot x.slots img t.bind.table)),
    channels := bindChannels t x.channels }

def State.bindTrackers (s : State) (b : JobBundle) : State :=
  let slots := (b.placeTables).getD []
  let s := slots.foldl (fun (s : State) (k, sl) => s.setSkein k { s.skein k with slots := sl }) s
  b.images.foldl (fun (s : State) i => i.trackers.foldl (fun (s : State) t => s.bindTracker i t) s) s

/-- The snapshot set that the module writes at SNP_SET_BASE (R378, R562). -/
def CkptTable.setBytes (t : CkptTable) : Bytes := t.entries.flatMap fun e => leBytes 8 e.addr ++ leBytes 8 (e.bytes / 65536)

/-- A waiter for a start condition or a prologue trigger, marked at once where the knot's value holds already (R327, R341, R348). -/
def State.addWaiter (s : State) (n k : Nat) (v : W64) (u : WaitUse) : State :=
  let now := (s.knot k).value
  { s with waiters := s.waiters ++ [⟨n, k, false, v, u, if v.ule now then some now else none⟩] }

/-- The waits of a station from the end of the load on: its KNOT start condition per sliver, its prologue per skein. -/
def State.stationWaits (s : State) (img : StationImage) : State :=
  let s := match img.start with
    | .knot k v => img.spindles.zipIdx.foldl (fun (s : State) (n, i) => s.addWaiter n k v (.start img.number i)) s
    | _ => s
  if img.prologue.isEmpty then s
  else ((img.spindles.map skeinOf).eraseDups.mergeSort).foldl
    (fun (s : State) k => s.addWaiter (64 * k) img.trigKnot img.trigValue (.prologue img.number k)) s

/-! ### The end of a load -/

/-- A job's state, mapping, tables and units as the load leaves them. -/
def State.placeJob (s : State) (b : JobBundle) : State :=
  let restore := match b.ckpt with | some t => bit t.flags 0 | none => false
  let s := { s with
    job := { s.job with
      state := if restore then .restoreWait else .loaded, isPlan := false, mapping := b.mapping, entry := b.entry,
      seeds := (b.seeds.filter fun e => decide (e.1 < 16)).map (fun e => (e.1, fitBytes 32 e.2)), colls := b.colls, runs := [],
      gathers := [], gatherSeq := 0, served := [], unsent := [], ckpt := b.ckpt },
    transit := [], knots := b.knotTable, queues := b.queueTable s.queueShadows, gen := GenEngine.reset,
    engines := s.engines.mapV fun (e : QueueEngine) => { e with heads := [] },
    stations := b.images.foldl (fun (t : Tbl Station) i => t.put i.number ⟨i, [], [], [], [], []⟩) [],
    snap := { s.snap with rState := if restore then 1 else 0 } }
  let s := (b.queueTable []).foldl (fun (s : State) kv => s.poke (descAddr kv.1) kv.2.descriptor) s
  let s := match b.mapping with | some m => s.writeGenKnots m | none => s
  let s := b.data.foldl (fun (s : State) d => s.poke d.1 d.2) s
  let s := match b.ckpt with | some t => s.poke (quoinBase + s.snap.setBase) t.setBytes | none => s
  let s := (s.bindTrackers b).addEntries b.events
  let s := b.images.foldl State.stationWaits s
  (b.colls.flatMap fun r => r.group.map (·.rank)).eraseDups.foldl State.openPeer s

/-- A SOLO job starts with the load: job position 0 is the next beat edge. -/
def State.startSolo (s : State) : State :=
  if s.soloJob && s.job.state == .loaded then
    State.beginJob { s with trd := { s.trd with jobBase := (s.trd.tpos + 1) % 2 ^ 64 } } 0
  else s

/-- A manager plan as the load leaves it (R533, R541, R544, R557): the head starts, and its positions with it. -/
def State.placePlan (s : State) (p : Plan) : State :=
  let s := { s with
    job := { s.job with state := .loaded, isPlan := true },
    mgr := { Manager.reset with state := .training, plan := some p, members := p.members, version := 1, selRing := s.mgr.selRing,
                                selPos := s.mgr.selPos },
    trd := { s.trd with tpos := 0, trained := false } }
  let s := s.replaceSchedule p.schedule
  -- a ring manager below the top joins it
  if p.top then s else s.joinManager

/-- The image kept for a DUMP is given up, and its area erased (R594): after the sag sequence, where one runs (R586). SAG leaves ARMED, so a
CAP_TEST that runs is abandoned (R663, R666; log entry 121). -/
def State.giveUpImage (s : State) : State :=
  if s.paused then { s with sag := { s.sag with kept := false } }
  else State.abandonCapTest { s with sag := { s.sag with state := .erasing, kept := false } }

/-- The load is complete: everything is written, and the host, the subscribers and the manager learn of it. The sag-save image that was
kept for a DUMP is given up. -/
def State.completeLoad (s : State) (b : JobBundle) (cmd : W64) : State :=
  let s := { s with job := { Job.reset with state := .loading, serial := s.job.serial + 1, attests := s.job.attests, bundles := s.job.bundles } }
  let s := s.loadPages
  let s := if s.sag.kept then s.giveUpImage else s
  let s := match b.plan with | some p => s.placePlan p | none => (s.placeJob b).startSolo
  let s := (s.raise pgMOD 0 s.job.serial).sendStatus 2 0 0
  s.finishCmd cmd 0 []

/-- Some memory clear is in progress. -/
def State.clearing (s : State) : Bool := (s.strat.any fun e => e.2.clearing) || (s.lpd.any fun e => e.2.clearing)

/-- A load that waits goes on once no clear is in progress (R376). -/
def State.pushLoad (s : State) : State :=
  match s.job.loading with
  | some (b, cmd) => if s.clearing then s else s.completeLoad b cmd
  | none => s

/-! ### Waking the dies (R375–R377) -/

/-- The dies that a job uses. -/
def JobBundle.dies (s : State) (b : JobBundle) : List Nat :=
  let resume := match b.ckpt with | some t => [(t.resumeAddr, t.resumeLen)] | none => []
  let spans := b.placed s ++ resume ++ b.data.map (fun d => (d.1, d.2.length))
  (List.range 4).filter fun d =>
    (b.images.any fun i => i.spindles.any fun n => dieOfSpindle n == d)
      || (b.queueNumbers.any fun q => dieOfQueue q == d)
      || (spans.any fun r => overlaps r.1 r.2 (d * stratumSize) stratumSize)

/-- A ring that a die's wake has cleared with the other SRAM (R375, R644); a capture under way goes on. -/
def Ring.cleared (g : Ring) : Ring := { Ring.reset with frozen := g.frozen, post := g.post }

/-- A compute die's stamp starts at zero, at the Q0 stamp that becomes its base, and its rings are cleared (R644). -/
def State.startStamp (s : State) (d : Nat) : State :=
  { s with stamps := s.stamps.set 0 d 0, bases := s.bases.set 0 d (s.stamp 4),
           rings := s.rings.filterMap fun kv =>
             if pageDie kv.1 != d then some kv else if kv.2.cleared = Ring.reset then none else some (kv.1, kv.2.cleared) }

/-- A die that the job uses and that is off is woken; its stratum memory is cleared before anything is written there. -/
def State.wakeDie (s : State) (d : Nat) : State :=
  if (s.die d).awake then s
  else ((s.startStamp d).setDie d ⟨true, true⟩).setStratum d { s.stratum d with clearing := true, ready := false }

/-- JOB_LOAD after its checks: refused with a code and no other effect, or LOADING until every clear is done. -/
def State.loadJob (s : State) (b : JobBundle) (cmd : W64) : State :=
  match s.loadRefusal b with
  | some e =>
    let s := if e == 0x0809 then s.raise pgEVT 1 0x0809 else s
    s.finishCmd cmd e []
  | none =>
    let s := { s with job := { s.job with state := .loading, loading := some (b, cmd) } }
    let s := if b.plan.isSome then s else (b.dies s).foldl State.wakeDie s
    s.pushLoad

/-- STRATUM_CLEAR_DONE (R375, R376, R389): the die's stratum memory is zero, ECC included. -/
def State.stratumCleared (s : State) (d : Nat) : State :=
  if !(s.stratum d).clearing then s else
  let s := s.clearMem (d * stratumSize) stratumSize
  (s.setStratum d { s.stratum d with clearing := false, ready := true }).letWrites.pushLoad

/-- LPD_CLEAR_DONE (R375, R376): a quoin's module memory is zero, and what waited for it goes on. -/
def State.lpdCleared (s : State) (q : Nat) : State :=
  if !(s.lpdOf q).clearing then s else
  let half := 0x4000000000
  let s := s.clearMem (moduleBase + q * half) half
  (s.setLpd q { s.lpdOf q with clearing := false }).letWrites.pushLoad

/-! ### Unloading (R187, R351, R377, R640) -/

/-- A skein as the unload leaves it: off, its trackers unbound. Their state and channels stay until the next binding, which alone resets
their counters (R187, R228, R637), and so do the selections of its windows. -/
def Skein.unload (k : Skein) : Skein :=
  { Skein.reset with
    trackers := k.trackers.mapV fun (t : Tracker) => { t with bound := false }, channels := k.channels,
    trkSel := k.trkSel, trkView := k.trkView, polSel := k.polSel, chanSel := k.chanSel }

/-- Dies that the job woke return to off. -/
def State.dropDies (s : State) : State :=
  (List.range 4).foldl (fun (s : State) d =>
    if (s.die d).byJob then
      (s.setDie d ⟨false, false⟩).setStratum d { s.stratum d with ready := false, clearing := false, scrubOn := false }
    else s) s

/-- JOB_UNLOAD. -/
def State.unloadJob (s : State) (cmd : W64) : State :=
  let s := s.abandonSnap 0x0309
  let wakes (q : SeqReq) : Bool := match q with | .wake _ => true | .raise _ => false
  let s := { s with
    job := { Job.reset with serial := s.job.serial, stop := s.job.stop, bundles := s.job.bundles },
    sp := [], sk := s.sk.mapV Skein.unload, smp := s.smp.mapV fun (x : Sampler) => { x with queue := [], ending := none },
    queues := s.queues.filterMap fun (kv : Nat × Queue) => if kv.2.counts = Queue.reset then none else some (kv.1, kv.2.counts), engines := s.engines.mapV fun (e : QueueEngine) => { e with heads := [] },
    knots := s.knots.mapV fun (k : Knot) => { k with declared := false, trace := false }, waiters := [], transit := [], stations := [],
    gen := GenEngine.reset,
    evt := { s.evt with entries := s.evt.entries.filter fun ie => ie.2.mgr, carried := [], undecided := [] },
    trd := { s.trd with resume := none, firstEdge := none, heldDecision := none, heldLate := false },
    power := { s.power with queue := s.power.queue.filter fun q => !(wakes q), granted := s.power.granted.filter fun q => !(wakes q) },
    mgr := if s.job.isPlan then { Manager.reset with selRing := s.mgr.selRing, selPos := s.mgr.selPos, takeover := s.mgr.takeover } else s.mgr,
    snap := { s.snap with rState := 0 } }
  let s := (s.dropDies).raise pgMOD 2 s.job.serial
  s.finishCmd cmd 0 []

end Sys2Proof.Machine
end

