-- ==== Sys2Proof/Machine/Regs.lean ====
section
/-!
DEFINITION. What a register word reads (R14–R16, R184, R227, R274, R322, R323, R353, R354, R389–R391, R431, R466, R467, R513, R555–R557, R575,
R599, R600, R620–R641, R668–R670, R690): the common header, and each block's own registers. Reading here has no side effect.
-/
namespace Sys2Proof.Machine

/-! ### What each block defines (R624) -/

/-- CNT_N by block-type code: counters selectable by CNT_SEL. -/
def counterCount (block : Nat) : Nat :=
  if block == 0x03 then 5 else if block == 0x04 then 8 else if block == 0x10 then 13 else if block == 0x11 then 18
  else if block == 0x12 then 8 else if block == 0x30 then 5 else if block == 0x32 then 6 else 0

/-- EVT_N by block-type code: one more than the highest event bit. -/
def eventCount (block : Nat) : Nat :=
  if block == 0x04 then 22 else if block == 0x03 then 5
  else if [0x06, 0x31].contains block then 6
  else if [0x02, 0x07, 0x08, 0x11].contains block then 4
  else if [0x01, 0x0A, 0x10, 0x12, 0x13, 0x32].contains block then 3
  else if [0x0C, 0x22].contains block then 1 else 2

/-- The event bits that a block defines; the others are reserved (R24, R432, R555). -/
def eventBits (block : Nat) : Nat := if block == 0x04 then 0x3F003F else 2 ^ eventCount block - 1

/-! ### Counters (R634, R636) -/

/-- A counter with a register of its own: its current value, or its LAST shadow under VIEW. -/
def PageHdr.now (h : PageHdr) (key : Nat) : Nat := if h.view then h.last.get 0 key else h.counter key

/-- The counter that CNT_SEL shows: its snapshot, or its LAST shadow under VIEW. -/
def PageHdr.selected (h : PageHdr) (block : Nat) : Nat :=
  let k := h.cntSel.toNat
  if counterCount block ≤ k then 0 else if h.view then h.last.get 0 k else h.snap.get 0 k

/-! ### The common header (R624) -/

def PageHdr.header (h : PageHdr) (block inst off : Nat) : Nat :=
  if off == 0x00 then block * 2 ^ 16 + inst
  else if off == 0x04 then 0x01004301
  else if off == 0x08 then counterCount block * 2 ^ 24 + eventCount block * 2 ^ 16
  else if off == 0x0C then 4 * b2n h.locked + b2n (!h.off)
  else if off == 0x10 then 4 * b2n h.locked + 2 * b2n h.errValid + 1
  else if off == 0x14 then h.pend.toNat
  else if off == 0x18 then h.mask.toNat
  else if off == 0x20 then h.errMore * 2 ^ 16 + h.errCode.toNat
  else if off == 0x24 then h.errInfo.toNat
  else if off == 0x28 then h.cntSel.toNat
  else if off == 0x2C then h.snapSeq * 2 ^ 16 + 2 * b2n h.view
  else 0

/-! ### MOD (R14, R15, R640) -/

def StopRec.word (r : StopRec) (i : Nat) : Nat :=
  if i == 0 then r.code.toNat * 2 ^ 16 + r.station % 2 ^ 12
  else if i == 1 then r.spindle % 2 ^ 13 * 2 ^ 16 + r.sliver % 2 ^ 13
  else if i == 2 then r.pc
  else if i == 3 then r.tensor
  else if i == 4 then r.row % 2 ^ 24
  else r.col % 2 ^ 24

/-- The four capability words (R15). -/
def State.capWord (s : State) (i : Nat) : Nat :=
  let v := s.trust.fuses.variant
  if i == 0 then v * 2 ^ 24 + 0x430100
  else if i == 1 then (if s.isH then 0x09000035 else 0x1200003F)
  else if i == 2 then (if s.isH then 0x200000FF else if s.hasB then 0x4000FFFF else 0x400000FF)
  else if s.isX then 0x00FF0F05 + 2 * b2n s.trust.mgrRole
  else if v == 2 then 0x00FF0000 else if v == 3 then 0x000F0F00 else 0x000F0000

def State.regMod (s : State) (h : PageHdr) (off : Nat) : Nat :=
  if 0x40 ≤ off ∧ off ≤ 0x4C then s.capWord ((off - 0x40) / 4)
  else if off == 0x50 then s.job.state.code * 2 ^ 28 + b2n s.job.isPlan * 2 ^ 24
  else if off == 0x54 then s.job.serial
  else if off == 0x58 then s.mrn.bootCount
  else if off == 0x5C then h.now 0x5C
  else if 0x60 ≤ off ∧ off ≤ 0x74 then s.job.stop.word ((off - 0x60) / 4)
  else 0

/-! ### PWR and SAG (R599, R600, R690) -/

def State.regPwr (s : State) (h : PageHdr) (off : Nat) : Nat :=
  let p := s.power
  if off == 0x40 then b2n p.changing * 2 ^ 16 + p.active * 2 ^ 8 + p.pendingMode.getD p.mode
  else if off == 0x44 then b2n (p.lease != 0) * 2 ^ 31 + min p.lease (Config.leaseLeft p.lease (s.stamp 4))
  else if off == 0x48 then p.iin * 2 ^ 16 + p.vin
  else if off == 0x4C then h.now 0x4C * 2 ^ 16 + p.pin
  else if off == 0x50 then p.reason * 2 ^ 8 + p.step
  else if off == 0x54 then h.now 0x54 * 2 ^ 8 + p.queue.length
  else if off == 0x58 then p.slotId * 2 ^ 16 + b2n p.tamperLvl * 2 ^ 8 + s.alertCause
  else if off == 0x5C then unsignedOf 16 p.outlet * 2 ^ 16 + unsignedOf 16 p.inlet
  else 0

def State.regSag (s : State) (h : PageHdr) (off : Nat) : Nat :=
  let g := s.sag
  if off == 0x40 then
    let (v, o) := match g.image with | some i => (i.valid, i.superseded) | none => (false, false)
    b2n o * 2 ^ 9 + b2n v * 2 ^ 8 + g.state.code
  else if off == 0x44 then g.holdMax
  else if off == 0x48 then min 0xFFFF g.lastUs * 2 ^ 16 + min 0xFFFF g.lastKib
  else if off == 0x4C then g.esr * 2 ^ 16 + g.cap
  else if off == 0x50 then g.euMj
  else if off == 0x54 then h.selected 0x03
  else 0

/-! ### TRD, EVT and MGR (R431, R555–R557) -/

def State.regTrd (s : State) (h : PageHdr) (off : Nat) : Nat :=
  let t := s.trd
  if off == 0x40 then
    s.linkCode * 2 ^ 28 + b2n t.closed * 2 ^ 27 + b2n t.trunkClosed * 2 ^ 26 + b2n s.soloBeat * 2 ^ 25
      + b2n (s.headsRing || s.headsTrunk) * 2 ^ 24 + t.ring % 256 * 2 ^ 8 + t.pos % 256
  else if off == 0x44 then t.tpos
  else if off == 0x48 then t.posHi.toNat
  else if off == 0x4C then t.jobBase
  else if off == 0x50 then t.jobBase / 2 ^ 32
  else if off == 0x54 then b2n t.byCtl * 2 ^ 31 + t.soloPeriod
  else if off == 0x58 then t.arrival
  else if off == 0x5C then t.target
  else if off == 0x60 then t.dT % 2 ^ 16 * 2 ^ 16 + t.dR % 2 ^ 16
  else if off == 0x64 then h.selected 0x04
  else if off == 0x68 then h.selected 0x04 / 2 ^ 32
  else if off == 0x6C then t.sample.toNat
  else if 0x70 ≤ off ∧ off ≤ 0x7C then t.mgrAddr.toNat / 2 ^ (32 * (3 - (off - 0x70) / 4))
  else if off == 0x200 then
    let c := s.slotIn 3
    (match c with | some j => s.slotSerial j * 2 ^ 8 + j * 2 ^ 6 | none => 3 * 2 ^ 6) * b2n (s.job.mapping.isSome)
      + s.gen.phase.code * 4 + b2n s.gen.lastVote * 2
  else if off == 0x204 then s.commits
  else if off == 0x208 then s.commits / 2 ^ 32
  else if off == 0x20C then h.now 0x20C
  else if off == 0x210 then h.now 0x210
  else if off == 0x214 then s.gen.drainUs
  else 0

def State.regEvt (s : State) (h : PageHdr) (off : Nat) : Nat :=
  if off == 0x40 then s.evt.sel
  else if 0x44 ≤ off ∧ off ≤ 0x60 then (s.evt.window.get 0 ((off - 0x44) / 4)).toNat
  else if off == 0x64 then (s.evt.entries.filter fun ie => ie.2.valid).length * 2 ^ 16
  else if off == 0x68 then h.now 0x68
  else 0

def State.regMgr (s : State) (h : PageHdr) (off : Nat) : Nat :=
  let g := s.mgr
  if s.workerRole then 0
  else if off == 0x40 then
    match g.plan with
    | some p =>
      g.state.code * 2 ^ 28 + b2n p.top * 2 ^ 27 + b2n p.trunk * 2 ^ 26 + p.ring % 256 * 2 ^ 8
        + (g.members.filter fun m => m.ring == p.ring && m.inRing).length % 256
    | none => g.state.code * 2 ^ 28
  else if off == 0x44 then g.version
  else if off == 0x48 then
    (g.members.filter fun m => m.spare && m.state == 1).length * 2 ^ 16 + (ranksOf g.members).length % 2 ^ 16
  else if off == 0x4C then g.ckpt.toNat
  else if off == 0x50 then g.ckpt.toNat / 2 ^ 32
  else if off == 0x54 then h.now 0x54
  else if off == 0x58 then h.now 0x58
  else if off == 0x5C then g.selPos * 2 ^ 8 + g.selRing
  else if off == 0x60 then
    match s.memberAt g.selRing g.selPos with
    | some m => m.rank * 2 ^ 16 + b2n m.spare * 2 ^ 8 + m.state
    | none => 0
  else 0

/-! ### SNP, TRC, WEAR and MNT (R391, R575, R668–R670) -/

def State.regSnp (s : State) (h : PageHdr) (off : Nat) : Nat :=
  let x := s.snap
  if off == 0x40 then x.setBase
  else if off == 0x44 then x.poolBase
  else if off == 0x48 then x.poolBase / 2 ^ 32
  else if off == 0x4C then x.poolPages
  else if off == 0x50 then x.timeout
  else if off == 0x54 then x.err.toNat * 2 ^ 16 + x.state.code
  else if off == 0x58 then x.poolPages - x.used.length
  else if off == 0x5C then h.now 0x5C
  else if off == 0x60 then h.now 0x60
  else if off == 0x64 then x.rErr.toNat * 2 ^ 16 + x.rState
  else if off == 0x68 then x.ckpt.toNat
  else if off == 0x6C then x.ckpt.toNat / 2 ^ 32
  else if off == 0x70 then x.restCkpt.toNat
  else if off == 0x74 then x.restCkpt.toNat / 2 ^ 32
  else 0

/-- The extended store is fitted (R653). -/
def State.xtWord (s : State) (v : Nat) : Nat := if s.isX then v else 0

def State.regTrc (s : State) (h : PageHdr) (off : Nat) : Nat :=
  let t := s.trace
  if off == 0x40 then b2n t.mrnBulk * 16 + s.xtWord (b2n t.xtStop * 8 + b2n t.xtEn * 4)
  else if off == 0x44 then
    t.lastSrc * 2 ^ 8 + s.xtWord (b2n (s.ringStopped xtDepth t.xt) * 8) + b2n t.held.isSome * 4 + t.phase.code
  else if off == 0x48 then t.trigMask
  else if off == 0x4C then t.postMaxUs * 2 ^ 16 + t.postPct
  else if off == 0x50 then t.stallMs * 2 ^ 16 + t.wdMs
  else if off == 0x54 then t.trigStamp
  else if off == 0x58 then t.trigStamp / 2 ^ 32
  else if off == 0x5C then h.now 0x5C
  else if off == 0x60 then t.lostSrc * 2 ^ 24 + t.lostStamp
  else if off == 0x64 then s.xtWord t.xtBase
  else if off == 0x68 then s.xtWord (t.xtBase / 2 ^ 32)
  else if off == 0x6C then s.xtWord t.xtBlk
  else if off == 0x70 then s.xtWord (t.xtBlk / 2 ^ 32)
  else if off == 0x74 then s.xtWord (h.now 0x74)
  else if off == 0x78 then t.dumpBase
  else if off == 0x7C then t.dumpBase / 2 ^ 32
  else if off == 0x80 then t.baseSel
  else if off == 0x84 then s.bases.get 0 t.baseSel
  else if off == 0x88 then s.bases.get 0 t.baseSel / 2 ^ 32
  else 0

def State.regWear (s : State) (off : Nat) : Nat :=
  let w := s.wear
  if off == 0x40 then w.sel
  else if off == 0x44 then unsignedOf 32 (w.latest.get 0 w.sel)
  else if off == 0x48 then w.eol.get 0xFFFFFFFE w.sel
  else if off == 0x4C then w.eol90.get 0xFFFFFFFE w.sel
  else if off == 0x50 then min 0xFFFF (s.samplesOf w.sel).length * 2 ^ 16 + min 0xFFFF (w.ageH.get 0 w.sel)
  else if off == 0x54 then w.alert
  else if off == 0x58 then w.alertDays
  else 0

/-- Bits of the activities in a list. -/
def actMask (l : List MntReq) : Nat := (List.range 7).foldl (fun m a => m + (if l.any fun q => q.act == a then 2 ^ a else 0)) 0

def State.regMnt (s : State) (h : PageHdr) (off : Nat) : Nat :=
  let m := s.maint
  if off == 0x40 then m.port * 2 ^ 8
  else if off == 0x44 then actMask m.waiting * 2 ^ 16 + actMask m.running
  else if off == 0x48 then m.deferMax
  else if off == 0x4C then m.capH * 2 ^ 24 + m.agingH * 2 ^ 16 + m.marginH
  else if off == 0x50 then m.lastErr.toNat * 2 ^ 16 + m.lastAct
  else if off == 0x54 || off == 0x58 || off == 0x5C then h.now off
  else 0

/-! ### SEC and FUSE (R620, R621) -/

def State.regSec (s : State) (off : Nat) : Nat :=
  let t := s.trust
  let img := t.running.getD []
  if off == 0x40 then imageSvn img * 2 ^ 16 + t.bootReason * 2 ^ 8 + b2n t.recovery * 2 ^ 7 + t.fuses.lc
  else if off == 0x44 then t.tamper
  else if off == 0x48 then leAt img 8 4
  else 0

def State.regFuse (s : State) (off : Nat) : Nat :=
  let t := s.trust
  let f := t.fuses
  if off == 0x40 then f.roleN * 2 ^ 24 + f.svnMin * 2 ^ 16 + f.revoked * 2 ^ 8 + f.ownerN
  else if off == 0x44 then f.addrN * 2 ^ 8 + f.lcN
  else if 0x48 ≤ off ∧ off ≤ 0x84 then (t.stage.get 0 ((off - 0x48) / 4)).toNat
  else if off == 0x8C then t.fuseErr.toNat * 2 ^ 16
  else if off == 0x90 then t.lsel
  else if 0x94 ≤ off ∧ off ≤ 0xD0 then leAt t.ldata (off - 0x94) 4
  else 0

/-! ### ETH, MRN and RED (R466, R467, R513) -/

def State.regEth (s : State) (h : PageHdr) (p off : Nat) : Nat :=
  let x := s.port p
  if off == 0x40 then b2n x.anEn * 8 + x.mode
  else if off == 0x44 then
    x.lanesOk * 2 ^ 8 + x.speed * 2 ^ 5 + b2n x.inSpray * 8 + b2n x.fecLock * 4 + b2n x.anDone * 2 + b2n x.linkUp
  else if off == 0x48 then s.portMac p
  else if off == 0x4C then s.portMac p / 2 ^ 32
  else if off == 0x50 then x.vlan.toNat
  else if off == 0x54 then x.ipv4.toNat
  else if 0x58 ≤ off ∧ off ≤ 0x64 then x.ipv6.toNat / 2 ^ (32 * (3 - (off - 0x58) / 4))
  else if off == 0x68 then x.gw4.toNat
  else if 0x6C ≤ off ∧ off ≤ 0x78 then x.gw6.toNat / 2 ^ (32 * (3 - (off - 0x6C) / 4))
  else if off == 0x7C then x.udpPort.toNat
  else if off == 0x80 then h.selected 0x10
  else if off == 0x84 then h.selected 0x10 / 2 ^ 32
  else 0

/-- MRN_SESS_INFO of a session (R513). -/
def Session.infoWord (x : Session) : Nat :=
  x.state.code * 2 ^ 28 + x.kind % 4 * 2 ^ 26 + x.plane % 4 * 2 ^ 24 + min 0xFF x.out.length * 2 ^ 16 + x.rank % 2 ^ 16

def State.regMrn (s : State) (h : PageHdr) (e off : Nat) : Nat :=
  let m := s.mrn
  let view := m.sessView.getD e Session.fresh
  if off == 0x40 then
    (m.sessions.filter fun kv => kv.1 / 4096 == e && kv.2.state != .CL).length * 2 ^ 16
      + (if e == 0 then m.origins.length * 2 ^ 8 else 0) + b2n m.tableAlt * 2 + b2n (s.power.pg || s.trust.recovery)
  else if off == 0x44 then
    if e == 0 then (m.cache.filter fun (c : CacheEntry) => c.running).length * 2 ^ 16 + m.cache.length else 0
  else if 0x48 ≤ off ∧ off ≤ 0x54 then (m.timers.getD ((off - 0x48) / 4) 0).toNat
  else if off == 0x58 then m.bulkReg.toNat
  else if off == 0x5C then m.sessSel.getD e 0
  else if off == 0x60 then view.infoWord
  else if off == 0x64 then view.id
  else if off == 0x68 then view.epoch
  else if off == 0x6C then h.selected 0x11
  else if off == 0x70 then h.selected 0x11 / 2 ^ 32
  else 0

def State.regRed (s : State) (h : PageHdr) (q off : Nat) : Nat :=
  let r := s.red.get RedEngine.reset q
  if off == 0x40 then min 896 (s.slotsOpen q)
  else if off == 0x44 then r.lastId * 2 ^ 16 + r.lastErr.toNat
  else if off == 0x48 then h.selected 0x12
  else if off == 0x4C then h.selected 0x12 / 2 ^ 32
  else 0

/-! ### LPD, STR, QUE, KNT and SMP (R274, R353, R354, R389, R390) -/

def State.regLpd (s : State) (h : PageHdr) (q off : Nat) : Nat :=
  let x := s.lpdOf q
  if off == 0x40 then x.chanUp.toNat
  else if off == 0x44 then b2n x.clearing
  else if 0x48 ≤ off ∧ off ≤ 0x54 then h.now off
  else if off == 0x58 then x.period
  else if off == 0x5C then x.temp.toNat
  else 0

def State.regStr (s : State) (h : PageHdr) (d off : Nat) : Nat :=
  let x := s.stratum d
  if off == 0x40 then b2n x.scrubOn * 4 + b2n x.clearing * 2 + b2n x.ready
  else if off == 0x44 then x.period
  else if off == 0x48 then x.scrubPos
  else if 0x4C ≤ off ∧ off ≤ 0x54 then h.now off
  else if off == 0x58 then (match x.failAddr with | some a => a / 64 * 64 | none => 0)
  else if off == 0x5C then (match x.failAddr with | some a => 2 ^ 31 + a / 2 ^ 32 % 2 ^ 16 | none => 0)
  else 0

/-- The queue window shows the counts, or under VIEW their LAST shadows (R353, R636). -/
def State.regQue (s : State) (h : PageHdr) (d off : Nat) : Nat :=
  let e := s.engine d
  let pushed := if h.view then e.view.lastPushed else e.view.pushed
  if off == 0x40 then e.sel
  else if off == 0x44 then e.view.state * 2 ^ 30 + b2n e.viewCached * 2 ^ 29 + e.view.occupied
  else if off == 0x48 then e.view.spilled
  else if off == 0x4C then min 0xFFFFFFFF (if h.view then e.view.lastFull else e.view.fullWaits)
  else if off == 0x50 then pushed
  else if off == 0x54 then pushed / 2 ^ 32 % 2 ^ 16
  else if off == 0x58 then e.heads.length
  else if off == 0x5C || off == 0x60 then h.now off
  else 0

def State.regKnt (s : State) (h : PageHdr) (d off : Nat) : Nat :=
  let w := s.knotWin.get KnotBlock.reset d
  if off == 0x40 then w.sel
  else if off == 0x44 then w.view.value.toNat
  else if off == 0x48 then w.view.value.toNat / 2 ^ 32
  else if off == 0x4C then b2n w.view.declared * 2 ^ 31 + b2n w.view.trace * 2 ^ 30 + w.viewWaiters % 2 ^ 13
  else if off == 0x50 then h.now 0x50
  else 0

/-- The SMP page (R274). BUSY reads 1 while a request waits or has results that wait, and QUEUED counts the request in front until it is served
(R274 leaves both open: DESIGN CHOICE, log entry 140). -/
def State.regSmp (s : State) (h : PageHdr) (d off : Nat) : Nat :=
  let x := s.sampler d
  if off == 0x40 then x.queue.length * 2 ^ 8 + b2n (!x.queue.isEmpty || x.ending.isSome)
  else if off == 0x44 || off == 0x48 || off == 0x50 then h.now off
  else if off == 0x4C then x.lastSpd * 2 ^ 16 + x.lastErr.toNat
  else 0

/-! ### SKN, PLY and SPD (R184, R227, R322, R323, R641) -/

def Power.code : Power → Nat
  | .off | .requested => 0
  | .waking => 1
  | .ready => 2
  | .retained | .resuming => 3

/-- Clock of an array domain in MHz, after throttling (R580, R583); zero while the skein is off. -/
def State.domainMhz (s : State) (d : Nat) : Nat :=
  if (s.skein (d / 2)).power.code == 0 then 0
  else modeClock (s.power.domain d) d * (16 - s.power.step) / 16

/-- Sum of the quotas of the stations placed on a skein (R45). -/
def State.quotaSum (s : State) (k : Nat) : Nat :=
  s.stations.foldl (fun n t => if t.2.img.spindles.any fun m => skeinOf m == k then n + t.2.img.quota.get 0 k else n) 0

/-- The pending deferral records of a skein by generation (R184): the generation's slot, then zero. -/
def State.deferSlot (s : State) (k j : Nat) : Nat :=
  if s.slotState j == 0 || s.genKnot.isNone then 0
  else
    let g := s.slotSerial j % 65536
    g * 2 ^ 16 + (s.skein k).pending.get 0 g

def State.regSkn (s : State) (h : PageHdr) (k off : Nat) : Nat :=
  let x := s.skein k
  if off == 0x40 then x.power.code * 2 ^ 30 + s.domainMhz (2 * k) * 2 ^ 16 + s.domainMhz (2 * k + 1)
  else if off == 0x44 then x.quotaUsed.foldl (fun n kv => n + kv.2) 0 * 2 ^ 16 + s.quotaSum k
  else if off == 0x48 then h.selected 0x30
  else if off == 0x4C then h.selected 0x30 / 2 ^ 32
  else if 0x100 ≤ off ∧ off ≤ 0x108 then s.deferSlot k ((off - 0x100) / 4)
  else if off == 0x10C then x.drainGen % 2 ^ 16 * 2 ^ 16 + b2n x.drain
  else if off == 0x110 then h.now 0x110
  else 0

/-- The tracker window (R196, R227). -/
def Tracker.word (t : Tracker) (view : Bool) (off : Nat) : Nat :=
  let b := t.bind
  if off == 0x44 then
    b2n t.bound * 2 ^ 31 + b2n b.current * 2 ^ 30 + b2n b.outEn * 2 ^ 29 + b2n b.recompute * 2 ^ 28 + b.rsMode * 2 ^ 26
      + t.slot % 4 * 2 ^ 24 + b.outShift % 16 * 2 ^ 20 + unsignedOf 8 b.rsTarget * 2 ^ 12 + b.station
  else if off == 0x48 then b.tensor
  else if off == 0x4C then b.col0
  else if off == 0x50 then b.coln
  else if off == 0x54 then b.format
  else if off == 0x58 then unsignedOf 16 t.anchor * 2 ^ 16 + t.state * 2 ^ 12 + t.exp
  else if off == 0x5C then t.dwell * 2 ^ 16 + t.epoch.toNat
  else if off == 0x60 then t.cur.reports % 2 ^ 24
  else if off == 0x64 then t.C
  else if off == 0x68 then t.V
  else if off == 0x6C then t.X
  else if off == 0x70 then b.stepTiles
  else if off == 0x74 then b.chCount * 2 ^ 16 + b.chBase
  else if off == 0x78 then b.spillMax
  else if 0x80 ≤ off ∧ off ≤ 0xBC then (t.hist.getD ((off - 0x80) / 4) 0).toNat
  else if 0xC0 ≤ off ∧ off ≤ 0x10C then
    let c := (if view then t.last else t.ctr).toList.getD ((off - 0xC0) / 8) 0
    if off % 8 == 0 then c else c / 2 ^ 32 % 2 ^ 8
  else if 0x138 ≤ off ∧ off ≤ 0x144 then (if b.format == 0x02 then leAt b.book (off - 0x138) 4 else 0)
  else 0

/-- A policy-table slot's image (R217). -/
def Skein.tableImage (x : Skein) (slot : Nat) : Bytes :=
  match x.slots.find slot with
  | some b => b
  | none => if slot == 0 then defaultTable else []

/-- A read of a PLY register (R227). A POL_WORD of 136–255 names no word of the table and an unused slot holds no table: POL_DATA reads zero
(the spec gives neither: DESIGN CHOICE, log entry 108). -/
def State.regPly (s : State) (h : PageHdr) (k off : Nat) : Nat :=
  let x := s.skein k
  let c := x.channels.get Channel.reset x.chanSel
  let word := 8 * (x.polSel.toNat % 256)
  if off == 0x40 then x.trkSel
  else if off == 0x110 then (3072 - x.spillUsed.foldl (fun n kv => n + kv.2) 0) * 2 ^ 16 + min 0xFFF (x.spillWait.countP fun q => !q.granted)
  else if off == 0x114 then x.polSel.toNat
  else if off == 0x118 then leAt (x.tableImage (x.polSel.toNat / 2 ^ 16 % 4)) word 4
  else if off == 0x11C then leAt (x.tableImage (x.polSel.toNat / 2 ^ 16 % 4)) (word + 4) 4
  else if off == 0x120 then x.chanSel
  else if off == 0x124 then c.lo.toNat
  else if off == 0x128 then c.hi.toNat
  else if off == 0x12C then b2n c.flat * 2 ^ 31 + min 0xFFFFFF c.clipped
  else if off == 0x130 then c.factor.toNat
  else if off == 0x134 then h.now 0x134
  else x.trkView.word h.view off

def State.regSpd (s : State) (h : PageHdr) (n off : Nat) : Nat :=
  let x := s.spindle n
  let bank (f : Bank → Nat) (w : Nat) : Nat := (List.range 16).foldl (fun m b => m + f (x.banks.get Bank.core b) * 2 ^ (w * b)) 0
  if off == 0x40 then x.run.code * 2 ^ 24 + b2n x.deferred * 2 ^ 23 + x.station
  else if off == 0x44 then x.pc
  else if off == 0x48 then x.nsliver * 2 ^ 16 + x.sliver
  else if off == 0x4C then bank (fun b => b.owner.code) 2
  else if off == 0x50 then bank (fun b => b2n b.pending) 1 * 2 ^ 16 + bank (fun b => b2n b.share) 1
  else if off == 0x54 then h.selected 0x32
  else if off == 0x58 then h.selected 0x32 / 2 ^ 32 % 2 ^ 16
  else 0

/-! ### A word of a page (R622–R625) -/

def State.blockWord (s : State) (page off : Nat) : Nat :=
  let b := pageBlock page
  let h := s.page page
  let i := b.2
  if b.1 == 0x01 then s.regMod h off
  else if b.1 == 0x02 then s.regPwr h off
  else if b.1 == 0x03 then s.regSag h off
  else if b.1 == 0x04 then s.regTrd h off
  else if b.1 == 0x05 then s.regEvt h off
  else if b.1 == 0x06 then s.regMgr h off
  else if b.1 == 0x07 then s.regSnp h off
  else if b.1 == 0x08 then s.regTrc h off
  else if b.1 == 0x09 then s.regWear off
  else if b.1 == 0x0A then s.regMnt h off
  else if b.1 == 0x0B then s.regSec off
  else if b.1 == 0x0C then s.regFuse off
  else if b.1 == 0x10 then s.regEth h i off
  else if b.1 == 0x11 then s.regMrn h i off
  else if b.1 == 0x12 then s.regRed h i off
  else if b.1 == 0x13 then s.regLpd h i off
  else if b.1 == 0x20 then s.regStr h i off
  else if b.1 == 0x21 then s.regQue h i off
  else if b.1 == 0x22 then s.regKnt h i off
  else if b.1 == 0x23 then s.regSmp h i off
  else if b.1 == 0x30 then s.regSkn h i off
  else if b.1 == 0x31 then s.regPly h i off
  else s.regSpd h i off

/-- The word at an offset of a page. -/
def State.readReg (s : State) (page off : Nat) : W32 :=
  let b := pageBlock page
  BitVec.ofNat 32 (
    if !s.pagePresent page then (if off == 0 then 0xFFFF0000 else 0)
    else if off < 0x40 then (s.page page).header b.1 b.2 off
    else s.blockWord page off)

end Sys2Proof.Machine
end

