-- ==== Sys2Proof/Machine/Pages.lean ====
section
/-!
DEFINITION. Writes to register pages (R23, R24, R196, R228, R353, R354, R375, R513, R535, R538, R556, R599, R600, R620–R640, R668–R670): the
common header, soft reset, and each block's own registers; reads with a side effect; and the commands that stand for such writes.
-/
namespace Sys2Proof.Machine

/-! ### The common header (R624–R631) -/

/-- Pages whose ENABLE is fixed at 1 (R626). -/
def enableFixed (block : Nat) : Bool := [0x01, 0x02, 0x03, 0x04, 0x0B, 0x0C].contains block

/-- A port that is taken out of service holds its link down (R446, R626). -/
def State.portOff (s : State) (page : Nat) : State :=
  let b := pageBlock page
  let x := s.port b.2
  if b.1 == 0x10 && x.linkUp then
    let s := s.setPort b.2 { x with lanesOk := 0, speed := 0, inSpray := false, fecLock := false, anDone := false, linkUp := false }
    (s.count page 12 1).raise page 1 b.2
  else s

/-- A write of ENABLE (R626). -/
def State.setEnable (s : State) (page : Nat) (on : Bool) : State :=
  let h := s.page page
  if !s.pagePresent page || enableFixed (pageBlock page).1 || h.off != on then s
  else if s.jobLoaded then s.latchErr page 0x0102 (unitInfo page)
  else
    let s := s.setPage page { h with off := !on }
    if on then s else s.portOff page

/-- LOCK (R628). -/
def State.lockPage (s : State) (page : Nat) : State :=
  if s.pagePresent page then s.setPage page { s.page page with locked := true } else s

/-- ERR_VALID cleared (R624, R630). -/
def State.clearErrAt (s : State) (page : Nat) : State :=
  if s.pagePresent page then s.setPage page (s.page page).clearErr else s

/-- EVT_PEND bits cleared (R624). -/
def State.clearPend (s : State) (page : Nat) (v : W32) : State :=
  if s.pagePresent page then
    let h := s.page page
    s.setPage page { h with pend := h.pend &&& ~~~v }
  else s

/-- The value that a generation engine's event records: C, or of REDO, THIN and UWR their knot (R432). -/
def State.genEventValue (s : State) (b : Nat) : Nat := if 19 ≤ b then s.genValue (b - 14) else s.commits

/-- One event is forced as its source raises it; one of the generation engine writes its own record too (R432, R631). -/
def State.forceEvent (s : State) (page b : Nat) : State :=
  if page == pgTRD && decide (16 ≤ b) then s.genEventF b 1 (BitVec.ofNat 64 (s.genEventValue b)) else s.raiseF page b 1 0

/-- The events named by a mask are forced, in ascending order (R631). -/
def State.forceEvents (s : State) (page : Nat) (v : W32) : State :=
  if s.pagePresent page then
    (List.range 32).foldl (fun (s : State) b =>
      if bit v.toNat b && bit (eventBits (pageBlock page).1) b then s.forceEvent page b else s) s
  else s

/-- SNAP (R635). -/
def State.snapCounters (s : State) (page : Nat) : State :=
  if s.pagePresent page then s.setPage page (s.page page).takeSnap else s

/-! ### The extended trace store in memory (R653) -/

/-- The slots of a record. -/
def TraceRec.all (r : TraceRec) : Bytes :=
  r.bytes ++ (match r.ext with | some x => fitBytes 16 x | none => [])

def slotBytes (l : List TraceRec) : Bytes := l.flatMap TraceRec.all

/-- Where the store's slots stand, oldest first: one run of bytes, or two where they go on from the store's first slot. -/
def State.xtRuns (s : State) : List (Nat × Nat) :=
  let t := s.trace
  let n := slotsOf t.xt.recs
  let first := (t.xtNext + xtDepth - n) % xtDepth
  let m := min n (xtDepth - first)
  [(t.xtBase + 16 * first, 16 * m), (t.xtBase, 16 * (n - m))]

/-- The copies stand in module memory, at their slots. While the store is on, nothing but the trace stream reads its range, and the copies
are kept as records; they are written when the store goes off or its base moves (log entry 120). -/
def State.xtToMemory (s : State) : State :=
  if s.trace.xtEn && regionOf s.trace.xtBase == .module && s.backedRange s.trace.xtBase (16 * xtDepth) then
    (s.xtRuns.foldl (fun (sb : State × Bytes) r => (sb.1.poke r.1 (sb.2.take r.2), sb.2.drop r.2)) (s, slotBytes s.trace.xt.recs)).1
  else s

/-- XT_EN and XT_BASE take new values, RW-L fields of TQD-4608-X (R653, R668). -/
def State.setXt (s : State) (en : Bool) (base : Nat) : State :=
  let s := if en && base == s.trace.xtBase then s else s.xtToMemory
  { s with trace := { s.trace with xtEn := en, xtBase := base } }

/-! ### Soft reset (R627) -/

/-- A tracker's counters reset (R195, R637). -/
def Tracker.clearCtr (t : Tracker) : Tracker := { t with ctr := Counts.zero, last := t.ctr }

/-- RW-L fields take their reset values unless the page is locked. -/
def State.ifOpen (s : State) (page : Nat) (f : State → State) : State := if (s.page page).locked then s else f s

/-- A block's own RW fields at their reset values; a PLY page's tracker counters are reset with it. -/
def State.resetFields (s : State) (page : Nat) : State :=
  let b := pageBlock page
  let i := b.2
  let lock := s.ifOpen page
  if b.1 == 0x02 then (s.endLease).setMode 2
  else if b.1 == 0x03 then lock fun s => { s with sag := { s.sag with holdMax := 0x64 } }
  else if b.1 == 0x04 then
    State.ifOpen { s with trd := { s.trd with byCtl := false } } page
      fun s => { s with trd := { s.trd with soloPeriod := 0x3E8, mgrAddr := 0 } }
  else if b.1 == 0x05 then { s with evt := { s.evt with sel := 0, window := [] } }
  else if b.1 == 0x06 then { s with mgr := { s.mgr with selRing := 0, selPos := 0 } }
  else if b.1 == 0x07 then
    if s.snap.state == .opened then s else
    lock fun s => { s with snap := { s.snap with setBase := 0, poolBase := 0, poolPages := 0, timeout := 0x186A0 } }
  else if b.1 == 0x08 then
    let s := { s with trace := { s.trace with mrnBulk := false, trigMask := 0x1FF, postMaxUs := 0x64, postPct := 0x19, stallMs := 0x3E8,
                                              wdMs := 0x1388, xtBlk := 0, baseSel := 0 } }
    s.ifOpen page fun s => State.setXt { s with trace := { s.trace with xtStop := false, dumpBase := 0 } } false 0
  else if b.1 == 0x09 then { s with wear := { s.wear with sel := 0, alertDays := 0x5A } }
  else if b.1 == 0x0A then
    { s with maint := { s.maint with port := 0, deferMax := 0x2710, capH := 0x18, agingH := 0x18, marginH := 0xA8 } }
  else if b.1 == 0x10 then
    lock fun s =>
      let x := s.port i
      s.setPort i { Port.reset with lanesOk := x.lanesOk, speed := x.speed, inSpray := x.inSpray, fecLock := x.fecLock, anDone := x.anDone,
                                    linkUp := x.linkUp, answered := x.answered, uncorrAt := x.uncorrAt }
  else if b.1 == 0x11 then
    let s := { s with mrn := { s.mrn with sessSel := s.mrn.sessSel.set i 0 } }
    if i != 0 then s
    else s.ifOpen page fun s => { s with mrn := { s.mrn with timers := Miornal.reset.timers, bulkReg := Miornal.reset.bulkReg } }
  else if b.1 == 0x13 then s.setLpd i { s.lpdOf i with period := 0x18 }
  else if b.1 == 0x20 then s.setStratum i { s.stratum i with period := 0x18 }
  else if b.1 == 0x21 then
    State.setEngine { s with queues := s.queues.map fun kv => if dieOfQueue kv.1 == i then (kv.1, kv.2.resetCounts) else kv } i
      { s.engine i with sel := 0 }
  else if b.1 == 0x22 then { s with knotWin := s.knotWin.set KnotBlock.reset i { s.knotWin.get KnotBlock.reset i with sel := 0 } }
  else if b.1 == 0x31 then
    let x := s.skein i
    s.setSkein i { x with trkSel := 0, polSel := 0, chanSel := 0, trackers := x.trackers.mapV Tracker.clearCtr }
  else s

/-- SRESET (R627). -/
def State.softReset (s : State) (page : Nat) : State :=
  let b := (pageBlock page).1
  if !s.pagePresent page || b == 0x01 || b == 0x0B || b == 0x0C then s
  else if s.jobLoaded then s.latchErr page 0x0102 (unitInfo page)
  else
    let s := s.resetFields page
    let h := s.page page
    s.setPage page { h.resetAll.clearErr with pend := 0, mask := 0, cntSel := 0, view := false }

/-- A write of the word at 0x00C: ENABLE, then SRESET, then LOCK. -/
def State.writeCtl (s : State) (page : Nat) (v : W32) : State :=
  let s := s.setEnable page (bit v.toNat 0)
  let s := if bit v.toNat 1 then s.softReset page else s
  if bit v.toNat 2 then s.lockPage page else s

def State.writeHeader (s : State) (page off : Nat) (v : W32) : State :=
  let h := s.page page
  if off == 0x0C then s.writeCtl page v
  else if off == 0x10 then (if bit v.toNat 1 then s.clearErrAt page else s)
  else if off == 0x14 then s.clearPend page v
  else if off == 0x18 then s.setPage page { h with mask := v &&& BitVec.ofNat 32 (eventBits (pageBlock page).1) }
  else if off == 0x1C then s.forceEvents page v
  else if off == 0x28 then s.setPage page { h with cntSel := v.setWidth 8 }
  else if off == 0x2C then
    let s := s.setPage page { h with view := bit v.toNat 1 }
    if bit v.toNat 0 then s.snapCounters page else s
  else s

/-! ### Windows (R196, R353, R354, R513) -/

/-- A write of PLY_TRK_SEL (R196). -/
def State.selectTracker (s : State) (k : Nat) (v : W32) : State :=
  let x := s.skein k
  let j := v.toNat % 256
  s.setSkein k { x with trkSel := j, trkView := x.trackers.get Tracker.reset j }

/-- A write of QUE_SEL (R353). -/
def State.selectQueue (s : State) (d : Nat) (v : W32) : State :=
  let e := s.engine d
  let i := v.toNat % 2 ^ 18
  let q := 262144 * d + i
  s.setEngine d { e with sel := i, view := s.queue q, viewCached := e.heads.contains q }

/-- A write of KNT_SEL (R354). -/
def State.selectKnot (s : State) (d : Nat) (v : W32) : State :=
  let i := v.toNat % 2048
  let k := 2048 * d + i
  { s with knotWin := s.knotWin.set KnotBlock.reset d ⟨i, s.knot k, (s.waiters.filter fun w => w.knot == k).length⟩ }

/-- A write of MRN_SESS_SEL (R513). -/
def State.selectSession (s : State) (e : Nat) (v : W32) : State :=
  let i := v.toNat % 4096
  { s with mrn := { s.mrn with sessSel := s.mrn.sessSel.set e i, sessView := s.mrn.sessView.set e (s.session (4096 * e + i)) } }

/-! ### Block registers -/

/-- The tracker that a channel entry belongs to runs in HOST mode (R221). -/
def Skein.hostChannel (x : Skein) (c : Nat) : Bool :=
  x.trackers.any fun t => t.2.bound && t.2.bind.rsMode == 1 && decide (t.2.bind.chBase ≤ c) && decide (c < t.2.bind.chBase + t.2.bind.chCount)

/-- A write of PLY_CHAN_FACTOR (R228): from the next epoch, and only in HOST mode. -/
def State.writeFactor (s : State) (k : Nat) (v : W32) : State :=
  let x := s.skein k
  let c := x.channels.get Channel.reset x.chanSel
  if x.hostChannel x.chanSel then
    s.setSkein k { x with channels := x.channels.set Channel.reset x.chanSel { c with nextFactor := v } }
  else s

/-- LPD_CTL.CLEAR (R375, R376). -/
def State.clearLpd (s : State) (q : Nat) (v : W32) : State :=
  if bit v.toNat 0 && !s.jobLoaded then s.setLpd q { s.lpdOf q with clearing := true } else s

/-- EVT_ENT0–7 show entry `i` (R556). -/
def State.showEntry (s : State) (i : Nat) : State :=
  let bs := (s.evt.entries.get EvEntry.reset i).bytes
  let words := (List.range 8).foldl (fun (t : Tbl W32) k => t.set 0 k (BitVec.ofNat 32 (leAt bs (4 * k) 4))) []
  { s with evt := { s.evt with sel := i, window := words } }

/-- A write of EVT_SEL: the entry's words (R556). -/
def State.selectEntry (s : State) (v : W32) : State := s.showEntry (v.toNat % 1024)

/-- A write of EVT_ENT0–6 (R556); the entry's reserved bits keep no write (R24, R534). -/
def State.writeWindow (s : State) (k : Nat) (v : W32) : State :=
  { s with evt := { s.evt with window := s.evt.window.set 0 k (if k == 3 then v &&& 0x7FF else v) } }

/-- The host's entry as the eight words give it; LATE is the module's to set. -/
def EventTable.windowEntry (t : EventTable) : EvEntry :=
  { EvEntry.parse ((List.range 8).flatMap fun k => leBytes 4 (t.window.get 0 k).toNat) with late := false }

/-- A write of EVT_ENT7: all eight words go into the selected entry, whatever stands there, or nothing and 0x0809 (R535, R538, R556). -/
def State.writeEntry (s : State) (v : W32) : State :=
  let s := s.writeWindow 7 v
  let e := s.evt.windowEntry
  let t := s.putEntry s.evt.sel e
  if (!e.valid || mayWrite .host false e.action) && s.evtOk (t.evt.entries.map (·.2)) then t.showEntry s.evt.sel else s.evtRefused

/-- A field that a write puts into part of a word. -/
def setWord (old : BitVec 128) (i : Nat) (v : W32) : BitVec 128 :=
  let sh := 32 * (3 - i)
  (old &&& ~~~((0xFFFFFFFF : BitVec 128) <<< sh)) ||| (v.setWidth 128 <<< sh)

/-- A ring that REARM returns to ARMED: its two counts are reset, and their values go to LAST (R637, R650). -/
def Ring.rearm (g : Ring) : Ring :=
  { g with overwritten := 0, frozenDrop := 0, lastOver := g.overwritten, lastDrop := g.frozenDrop, frozen := false, post := 0 }

/-- TRC_CTL.REARM (R650): every ring and the extended store are ARMED; ignored while a dump is held. -/
def State.rearm (s : State) : State :=
  if s.trace.held.isSome then s
  else { s with trace := { s.trace with phase := .armed, xt := s.trace.xt.rearm, xtFull := false }, rings := s.rings.mapV Ring.rearm }

/-- TRC_CTL.TRIG (R647). -/
def State.hostTrigger (s : State) : State := (s.trigger trgHost).1

/-- A write of TRC_CTL: its fields, then REARM, then TRIG. -/
def State.writeTrcCtl (s : State) (v : W32) : State :=
  let n := v.toNat
  let s := { s with trace := { s.trace with mrnBulk := bit n 4 } }
  let s := if s.isX then
      s.ifOpen pgTRC fun s => State.setXt { s with trace := { s.trace with xtStop := bit n 3 } } (bit n 2) s.trace.xtBase
    else s
  let s := if bit n 1 then s.rearm else s
  if bit n 0 then s.hostTrigger else s

def State.writeTrc (s : State) (off : Nat) (v : W32) : State :=
  let n := v.toNat
  let t := s.trace
  let hi := n % 2 ^ 16 * 2 ^ 32
  let lo := n / 2 ^ 16 * 2 ^ 16
  if off == 0x40 then s.writeTrcCtl v
  else if off == 0x48 then { s with trace := { t with trigMask := n % 2 ^ 9 } }
  else if off == 0x4C then { s with trace := { t with postMaxUs := n / 2 ^ 16, postPct := min 100 (n % 2 ^ 7) } }
  else if off == 0x50 then { s with trace := { t with stallMs := n / 2 ^ 16, wdMs := n % 2 ^ 16 } }
  else if off == 0x64 && s.isX then s.ifOpen pgTRC fun s => s.setXt t.xtEn (t.xtBase / 2 ^ 32 * 2 ^ 32 + lo)
  else if off == 0x68 && s.isX then s.ifOpen pgTRC fun s => s.setXt t.xtEn (t.xtBase % 2 ^ 32 + hi)
  else if off == 0x6C && s.isX then { s with trace := { t with xtBlk := t.xtBlk / 2 ^ 32 * 2 ^ 32 + n } }
  else if off == 0x70 && s.isX then { s with trace := { t with xtBlk := t.xtBlk % 2 ^ 32 + n * 2 ^ 32 } }
  else if off == 0x78 then s.ifOpen pgTRC fun s => { s with trace := { t with dumpBase := t.dumpBase / 2 ^ 32 * 2 ^ 32 + lo } }
  else if off == 0x7C then s.ifOpen pgTRC fun s => { s with trace := { t with dumpBase := t.dumpBase % 2 ^ 32 + hi } }
  else if off == 0x80 then { s with trace := { t with baseSel := n % 8 } }
  else s

/-- Writes of SNP: RW-L, and ignored while a snapshot is open (R391). -/
def State.writeSnp (s : State) (off : Nat) (v : W32) : State :=
  let n := v.toNat
  let x := s.snap
  if (s.page pgSNP).locked || x.state == .opened then s
  else if off == 0x40 then { s with snap := { x with setBase := n % 2 ^ 26 / 16 * 16 } }
  else if off == 0x44 then { s with snap := { x with poolBase := x.poolBase / 2 ^ 32 * 2 ^ 32 + n / 2 ^ 16 * 2 ^ 16 } }
  else if off == 0x48 then { s with snap := { x with poolBase := x.poolBase % 2 ^ 32 + n % 2 ^ 16 * 2 ^ 32 } }
  else if off == 0x4C then (if n % 2 ^ 25 ≤ 16777216 then { s with snap := { x with poolPages := n % 2 ^ 25 } } else s)
  else if off == 0x50 then (if 1000 ≤ n % 2 ^ 24 ∧ n % 2 ^ 24 ≤ 10000000 then { s with snap := { x with timeout := n % 2 ^ 24 } } else s)
  else s

/-- A host's request for a maintenance activity (R662); a MARGIN_SCAN of a port that is not fitted asks for nothing. -/
def State.hostActivity (s : State) (act : Nat) : State :=
  if act == 0 then s.mntScrub
  else if act == 4 then s.mntStream
  else if act == 2 then (if s.portFitted s.maint.port then s.mntRequest ⟨2, s.maint.port, true⟩ else s)
  else s.mntRequest ⟨act, 0, true⟩

/-- Writes of MNT: PORT, then the activities asked for, in ascending number (R664, R670). -/
def State.writeMnt (s : State) (off : Nat) (v : W32) : State :=
  let n := v.toNat
  if off == 0x40 then
    (List.range 7).foldl (fun (s : State) a => if bit n a then s.hostActivity a else s)
      { s with maint := { s.maint with port := field n 8 4 } }
  else if off == 0x48 then { s with maint := { s.maint with deferMax := n } }
  else if off == 0x4C then { s with maint := { s.maint with capH := field n 24 8, agingH := field n 16 8, marginH := n % 2 ^ 16 } }
  else s

/-- Writes of ETH (R466), all RW-L. -/
def State.writeEth (s : State) (p off : Nat) (v : W32) : State :=
  let n := v.toNat
  let x := s.port p
  if (s.page (pgETH p)).locked then s
  else if off == 0x40 then s.setPort p { x with anEn := bit n 3, mode := if n % 8 ≤ 3 then n % 8 else x.mode }
  else if off == 0x50 then s.setPort p { x with vlan := v &&& 0x8FFF7777 }
  else if off == 0x54 then s.setPort p { x with ipv4 := v }
  else if 0x58 ≤ off ∧ off ≤ 0x64 then s.setPort p { x with ipv6 := setWord x.ipv6 ((off - 0x58) / 4) v }
  else if off == 0x68 then s.setPort p { x with gw4 := v, gwMac4 := none }
  else if 0x6C ≤ off ∧ off ≤ 0x78 then s.setPort p { x with gw6 := setWord x.gw6 ((off - 0x6C) / 4) v, gwMac6 := none }
  else if off == 0x7C then s.setPort p { x with udpPort := v.setWidth 16 }
  else s

/-- Writes of MRN (R513): MRN0's timer and bulk registers govern the module, and MRN1 only shows them. A field outside its range keeps
its value. -/
def State.writeMrn (s : State) (e off : Nat) (v : W32) : State :=
  let n := v.toNat
  let m := s.mrn
  let keep (lo hi new old : Nat) : Nat := if lo ≤ new ∧ new ≤ hi then new else old
  let two (old : W32) (hlo hhi llo lhi : Nat) : W32 :=
    BitVec.ofNat 32 (keep hlo hhi (n / 2 ^ 16) (old.toNat / 2 ^ 16) * 2 ^ 16 + keep llo lhi (n % 2 ^ 16) (old.toNat % 2 ^ 16))
  if off == 0x5C then s.selectSession e v
  else if e != 0 || (s.page (pgMRN 0)).locked then s
  else if 0x48 ≤ off ∧ off ≤ 0x54 then
    let i := (off - 0x48) / 4
    { s with mrn := { m with timers := m.timers.set i (two (m.timers.getD i 0) 1 65535 1 65535) } }
  else if off == 0x58 then { s with mrn := { m with bulkReg := two m.bulkReg 1 3600 16 1024 } }
  else s

/-- SEC_TAMPER bits cleared: a bit whose source is active stays (R619). -/
def State.clearTamper (s : State) (v : W32) : State :=
  { s with trust := { s.trust with tamper := s.trust.tamper &&& (15 - (v.toNat % 16 &&& (15 - s.trust.tamperActive % 16))) } }

/-- A write of FUSE_CMD from a register message (R611, R612); after a change of the life cycle the message's RESULT and the module reset
follow (R617). -/
def State.writeFuseCmd (s : State) (v : W32) (origin : W64) : State := (s.fuseCmd (v.toNat % 256) (v.toNat / 256) origin).1

def State.writeFuse (s : State) (off : Nat) (v : W32) (origin : W64) : State :=
  if 0x48 ≤ off ∧ off ≤ 0x84 then { s with trust := { s.trust with stage := s.trust.stage.set 0 ((off - 0x48) / 4) v } }
  else if off == 0x88 then s.writeFuseCmd v origin
  else if off == 0x90 then s.ledgerSel v
  else s

/-- A scrub period: 1–168 hours, other values ignored (R389, R390). -/
def periodOk (n : Nat) : Bool := decide (1 ≤ n) && decide (n ≤ 168)

def State.writePly (s : State) (k off : Nat) (v : W32) : State :=
  let x := s.skein k
  if off == 0x40 then s.selectTracker k v
  else if off == 0x114 then s.setSkein k { x with polSel := v &&& 0x000300FF }
  else if off == 0x120 then s.setSkein k { x with chanSel := v.toNat % 4096 }
  else if off == 0x130 then s.writeFactor k v
  else s

/-- A write of a block's own register; a register that is not listed is read-only or reserved (R23, R24). -/
def State.writeBlock (s : State) (page off : Nat) (v : W32) (origin : W64) : State :=
  let b := pageBlock page
  let i := b.2
  let n := v.toNat
  if b.1 == 0x02 then (if off == 0x40 then s.writeMode v else if off == 0x44 then s.writeLease v else s)
  else if b.1 == 0x03 then
    let ms := n % 2 ^ 14
    if off == 0x44 && decide (1 ≤ ms) && decide (ms ≤ 10000) then s.ifOpen page fun s => { s with sag := { s.sag with holdMax := ms } } else s
  else if b.1 == 0x04 then
    if off == 0x54 then s.writeTrdCtl v
    else if 0x70 ≤ off ∧ off ≤ 0x7C then
      s.ifOpen page fun s => s.writeMgrAddr (setWord s.trd.mgrAddr ((off - 0x70) / 4) v) (off == 0x7C)
    else s
  else if b.1 == 0x05 then
    if off == 0x40 then s.selectEntry v
    else if 0x44 ≤ off ∧ off ≤ 0x5C then s.writeWindow ((off - 0x44) / 4) v
    else if off == 0x60 then s.writeEntry v
    else s
  else if b.1 == 0x06 then
    if s.workerRole then s
    else if off == 0x5C then { s with mgr := { s.mgr with selPos := field n 8 7, selRing := n % 2 ^ 7 } }
    else if off == 0x64 && bit n 0 then s.makeSpareEntry
    else s
  else if b.1 == 0x07 then s.writeSnp off v
  else if b.1 == 0x08 then s.writeTrc off v
  else if b.1 == 0x09 then
    if off == 0x40 then { s with wear := { s.wear with sel := n % 2 ^ 5 } }
    else if off == 0x58 then { s with wear := { s.wear with alertDays := n % 2 ^ 16 } }
    else s
  else if b.1 == 0x0A then s.writeMnt off v
  else if b.1 == 0x0B then (if off == 0x44 then s.clearTamper v else s)
  else if b.1 == 0x0C then s.writeFuse off v origin
  else if b.1 == 0x10 then s.writeEth i off v
  else if b.1 == 0x11 then s.writeMrn i off v
  else if b.1 == 0x13 then
    if off == 0x44 then s.clearLpd i v
    else if off == 0x58 && periodOk (n % 256) then s.setLpd i { s.lpdOf i with period := n % 256 }
    else s
  else if b.1 == 0x20 then
    if off == 0x44 && periodOk (n % 256) then s.setStratum i { s.stratum i with period := n % 256 }
    else if off == 0x5C && bit n 31 then s.setStratum i { s.stratum i with failAddr := none }
    else s
  else if b.1 == 0x21 then (if off == 0x40 then s.selectQueue i v else s)
  else if b.1 == 0x22 then (if off == 0x40 then s.selectKnot i v else s)
  else if b.1 == 0x31 then s.writePly i off v
  else s

/-- A write of one word of a page by a register message with command id `origin` (R23, R499, R625). -/
def State.writeReg (s : State) (page off : Nat) (v : W32) (origin : W64) : State :=
  if !s.pagePresent page then s
  else if off < 0x40 then s.writeHeader page off v
  else s.writeBlock page off v origin

/-- What a host's read of a word does besides reading it: POS_HI latches, PIN_MAX is reset (R555, R637). -/
def State.afterRead (s : State) (page off : Nat) : State :=
  if page == pgTRD && off == 0x44 then s.latchPosHi
  else if page == pgPWR && off == 0x4C then s.readPin
  else s

/-! ### The commands -/

/-- A register command reaches its page only while the module is powered. -/
def State.whenUp (s : State) (f : State → State) : State := if s.power.pg then f s else s

/-- PAGE_LOCK (R628). -/
def execPageLock (page : Nat) (s : State) : Host.Outcome State Fault Refusal := .next (s.whenUp fun s => s.lockPage page)

/-- SRESET (R627). -/
def execSreset (page : Nat) (s : State) : Host.Outcome State Fault Refusal := .next (s.whenUp fun s => s.softReset page)

/-- ENABLE_WRITE (R626). -/
def execEnableWrite (page : Nat) (on : Bool) (s : State) : Host.Outcome State Fault Refusal :=
  .next (s.whenUp fun s => s.setEnable page on)

/-- ERR_VALID_CLEAR (R630). -/
def execErrValidClear (page : Nat) (s : State) : Host.Outcome State Fault Refusal := .next (s.whenUp fun s => s.clearErrAt page)

/-- EVT_PEND_CLEAR (R629). -/
def execEvtPendClear (page : Nat) (v : W32) (s : State) : Host.Outcome State Fault Refusal := .next (s.whenUp fun s => s.clearPend page v)

/-- EVT_FORCE (R631). -/
def execEvtForce (page : Nat) (v : W32) (s : State) : Host.Outcome State Fault Refusal := .next (s.whenUp fun s => s.forceEvents page v)

/-- COUNTER_SNAP (R635). -/
def execCounterSnap (page : Nat) (s : State) : Host.Outcome State Fault Refusal := .next (s.whenUp fun s => s.snapCounters page)

/-- PLY_TRK_SEL_WRITE (R196). -/
def execPlyTrkSelWrite (k : Nat) (v : W32) (s : State) : Host.Outcome State Fault Refusal :=
  .next (s.whenUp fun s => if s.skeinPresent k then s.selectTracker k v else s)

/-- QUE_SEL_WRITE (R353). -/
def execQueSelWrite (die : Nat) (v : W32) (s : State) : Host.Outcome State Fault Refusal :=
  .next (s.whenUp fun s => if s.diePresent die then s.selectQueue die v else s)

/-- KNT_SEL_WRITE (R354). -/
def execKntSelWrite (die : Nat) (v : W32) (s : State) : Host.Outcome State Fault Refusal :=
  .next (s.whenUp fun s => if s.diePresent die then s.selectKnot die v else s)

/-- MRN_SESS_SEL_WRITE (R513). -/
def execMrnSessSelWrite (e : Nat) (v : W32) (s : State) : Host.Outcome State Fault Refusal :=
  .next (s.whenUp fun s => if e < 2 then s.selectSession e v else s)

/-- PLY_CHAN_FACTOR_WRITE (R228). -/
def execPlyChanFactorWrite (k : Nat) (v : W32) (s : State) : Host.Outcome State Fault Refusal :=
  .next (s.whenUp fun s => if s.skeinPresent k then s.writeFactor k v else s)

/-- LPD_CTL_CLEAR (R375, R376). -/
def execLpdCtlClear (q : Nat) (v : W32) (s : State) : Host.Outcome State Fault Refusal :=
  .next (s.whenUp fun s => if q < 2 then s.clearLpd q v else s)

/-- EVT_SEL_WRITE (R556). -/
def execEvtSelWrite (v : W32) (s : State) : Host.Outcome State Fault Refusal := .next (s.whenUp fun s => s.selectEntry v)

/-- EVT_ENT7_WRITE (R556). -/
def execEvtEnt7Write (v : W32) (s : State) : Host.Outcome State Fault Refusal := .next (s.whenUp fun s => s.writeEntry v)

/-- TRC_CTL_TRIG (R647). -/
def execTrcCtlTrig (s : State) : Host.Outcome State Fault Refusal := .next (s.whenUp State.hostTrigger)

/-- TRC_CTL_REARM (R650). -/
def execTrcCtlRearm (s : State) : Host.Outcome State Fault Refusal := .next (s.whenUp State.rearm)

end Sys2Proof.Machine
end

