-- ==== Sys2Proof/Machine/Dump.lean ====
section
/-!
DEFINITION. The end of a trace capture, the trace stream, dumps and wear predictions (R632, R647–R661).
-/
namespace Sys2Proof.Machine

/-! ### Freezing (R648, R654, R655) -/

/-- The Q0 stamp at which the extended store froze, where it freezes no later than now (R654). -/
def State.xtFreeze (s : State) : Nat := if s.ringStopped xtDepth s.trace.xt then s.trace.xtStamp else s.stamp 4

/-- Every ring and the extended store are frozen; FROZEN is raised. -/
def State.freezeAll (s : State) : State :=
  if s.trace.phase == .frozen then s
  else State.raise { s with trace := { s.trace with phase := .frozen, xtStamp := s.xtFreeze, freezeStamp := s.stamp 4, freezeT := s.trd.tpos, freezeJ := s.jobPos } } pgTRC 1 0

/-- Pages whose units have a ring: every present one but those of the knot blocks (R645, R657). -/
def State.hasRing (s : State) (p : Nat) : Bool := s.pagePresent p && !(decide (34 ≤ p) && decide (p < 38))

/-- The number that stands for the extended store where a ring is named by its page. -/
def xtPage : Nat := pageCount

/-- Every ring has frozen, and the extended store with them. -/
def State.allStopped (s : State) : Bool :=
  ((List.range pageCount).all fun p => !(s.hasRing p) || s.ringStopped (ringDepth p) (s.ring p))
    && (!(s.isX && s.trace.xtEn) || s.ringStopped xtDepth s.trace.xt)

/-- RING_FREEZE (R648): a ring that has written its POST records freezes; the last one completes the capture. -/
def execRingFreeze (page : Nat) (s : State) : Host.Outcome State Fault Refusal :=
  .next (s.whenUp fun s =>
    if s.trace.phase != .post then s
    else
      let s :=
        if page == xtPage then
          (if s.ringStopped xtDepth s.trace.xt then { s with trace := { s.trace with xt := { s.trace.xt with frozen := true } } } else s)
        else if s.hasRing page && s.ringStopped (ringDepth page) (s.ring page) then s.setRing page { s.ring page with frozen := true }
        else s
      if s.allStopped then s.freezeAll else s)

/-- POST_MAX_EXPIRY (R648): POST_MAX_US since the capture, pauses not counted. -/
def execPostMaxExpiry (s : State) : Host.Outcome State Fault Refusal :=
  .next (s.whenUp fun s => if s.trace.phase == .post && !s.paused then s.freezeAll else s)

/-- BULK_STALL_TRIGGER (R647): the journal of an operation has not advanced for TRC_STALL_MS. -/
def execBulkStallTrigger (op : W64) (s : State) : Host.Outcome State Fault Refusal :=
  .next (s.whenUp fun s =>
    match s.findOp op with
    | some o => if o.live && !s.paused then (s.trigger 6).1 else s
    | none => s)

/-! ### The trace stream (R654) -/

/-- The slots of the store, oldest first: what memory holds of them once the store is off and its range is no longer reserved (R653). -/
def State.xtSlots (s : State) : Bytes :=
  if s.trace.xtEn then slotBytes s.trace.xt.recs else (s.xtRuns.map fun r => s.load r.1 r.2).flatten

/-- The object TRACE: its 64-byte header and the slots, oldest first. -/
def State.traceStream (s : State) : Bytes :=
  fitBytes 64 (leBytes 4 0x54585452 ++ leBytes 8 (slotsOf s.trace.xt.recs) ++ ((List.range 6).flatMap fun d => leBytes 6 (s.bases.get 0 d))
    ++ leBytes 6 s.trace.xtStamp) ++ s.xtSlots

/-- BULK_CREATE of TRACE freezes the store first. -/
def State.freezeXt (s : State) : State :=
  { s with trace := { s.trace with xt := { s.trace.xt with frozen := true }, xtStamp := s.xtFreeze } }

/-! ### Dumps (R655–R657) -/

/-- Section 1: every page. -/
def State.dumpPages (s : State) : Bytes :=
  (List.range pageCount).flatMap fun p => (List.range 1024).flatMap fun i => leBytes 4 (s.readReg p (4 * i)).toNat

/-- State of a ring in its dump header. -/
def State.ringCode (s : State) (depth : Nat) (g : Ring) : Nat :=
  if s.trace.phase == .armed then 0 else if s.ringStopped depth g then 2 else 1

/-- Section 2: a header and the slots of each ring. -/
def State.dumpRings (s : State) : Bytes :=
  ((List.range pageCount).filter s.hasRing).flatMap fun p =>
    let b := pageBlock p
    let g := s.ring p
    leBytes 2 b.1 ++ leBytes 2 b.2 ++ leBytes 4 (ringDepth p) ++ leBytes 4 (slotsOf g.recs) ++ leBytes 1 (s.ringCode (ringDepth p) g)
      ++ zeros 3 ++ leBytes 8 g.overwritten ++ leBytes 8 g.frozenDrop ++ slotBytes g.recs

/-- Section 3: the sag-save image that is kept. -/
def State.dumpSag (s : State) : Bytes :=
  match s.sag.kept, s.sag.image with
  | true, some i => i.bytes
  | _, _ => []

/-- The header block of a dump. -/
def State.dumpHeader (s : State) (commanded : Bool) (id : Nat) (lens : List Nat) (offs : List Nat) (len : Nat) : Bytes :=
  let sect := ((List.range 3).map fun i =>
    leBytes 2 (i + 1) ++ zeros 2 ++ leBytes 4 (offs.getD i 0) ++ leBytes 4 (lens.getD i 0) ++ zeros 4).flatten
  let base := (List.range 6).flatMap fun d => leBytes 8 (if d < 4 && !(s.die d).awake then 0 else s.bases.get 0 d)
  let pre := leBytes 4 0x54444D50 ++ leBytes 1 1 ++ leBytes 1 (b2n commanded) ++ leBytes 2 s.job.stop.code.toNat ++ leBytes 8 id
    ++ leBytes 4 s.mrn.bootCount ++ leBytes 4 (if s.jobLoaded then s.job.serial else 0) ++ leBytes 8 s.trace.freezeT
    ++ leBytes 8 s.trace.freezeJ ++ leBytes 8 s.trace.freezeStamp ++ base ++ leBytes 8 len
  let post := leBytes 4 ((List.range pageCount).filter s.hasRing).length ++ sect
  let h0 := fitBytes 0x100 (pre ++ zeros 4 ++ post)
  fitBytes 65536 (pre ++ leBytes 4 (crc32c h0).toNat ++ post)

/-- The dump's bytes: header block, pages, rings and sag image, each section on a 64-byte boundary. -/
def State.dumpBytes (s : State) (commanded : Bool) (id : Nat) : Bytes :=
  let a := s.dumpPages
  let b := s.dumpRings
  let c := s.dumpSag
  let o2 := 65536 + a.length
  let o3 := o2 + roundUp b.length 64
  s.dumpHeader commanded id [a.length, b.length, c.length] [65536, o2, o3] (o3 + c.length) ++ a ++ pad64 b ++ c

/-- The dump buffer lies in module memory. -/
def State.dumpFits (s : State) : Bool :=
  regionOf s.trace.dumpBase == .module && s.backedRange s.trace.dumpBase (48 * 2 ^ 20)

/-- Steps 2 to 4 of R655, and DUMP_READY (R668). -/
def State.takeDump (s : State) (commanded : Bool) : State :=
  let s := ((s.trigger trgDump).1).freezeAll
  let s := s.mapPages fun _ h => h.takeSnap
  let id := s.mrn.bootCount * 2 ^ 32 + s.trace.dumpSeq
  let bs := s.dumpBytes commanded id
  let s := { s with trace := { s.trace with held := some (id, bs.length), dumpSeq := (s.trace.dumpSeq + 1) % 2 ^ 32 } }
  let s := if s.dumpFits then s.store s.trace.dumpBase bs none else s
  s.raise pgTRC 2 0

/-- DUMP (R655): the code that refuses it, or the result's data. -/
def State.commandDump (s : State) (flags : Nat) : State × W16 × Bytes :=
  if s.trace.held.isSome && !bit flags 0 then (s, 0x0906, []) else
  let s := if s.job.state == .loaded then s.stopUnit 0x0904 0 else s
  let s := s.takeDump true
  match s.trace.held with
  | some (id, len) => (s, 0, leBytes 8 id ++ leBytes 8 len)
  | none => (s, 0, [])

/-! ### A second passes (R441, R632) -/

/-- EVENT_RATE_INTERVAL (R632): the next interval of one second begins, for EVENTs, for what a port answers itself and for answers to packets
without a session. -/
def execEventRateInterval (s : State) : Host.Outcome State Fault Refusal :=
  .next { s with evtSent := [], ports := s.ports.mapV (fun (x : Port) => { x with answered := 0 }), mrn := { s.mrn with strays := [] } }

/-! ### Wear (R661) -/

/-- An indicator's daily sample joins the history, and its predictions follow. -/
def State.wearDay (s : State) (ind : Nat) : State :=
  match s.wear.latest.find ind with
  | none => s
  | some v =>
    State.wearJudge { s with wear := { s.wear with history := s.wear.history ++ [(⟨ind, v⟩ : WearSample)],
                                                   ageH := s.wear.ageH.put ind (s.wear.ageH.get 0 ind + 24) } } ind v

/-- WEAR_DAILY_SAMPLE (R661): the history grows in the keep store. -/
def execWearDailySample (s : State) : Host.Outcome State Fault Refusal :=
  .next (s.whenUp fun s => ((List.range 17).foldl State.wearDay s).keepWritten)

end Sys2Proof.Machine
end

