-- ==== Sys2Proof/Machine/Session.lean ====
section
/-!
DEFINITION. Sessions from the network's side (R443, R444, R469–R491, R606, R607): the admission of a packet, sequence and acknowledgement,
opening, the session table, and the sessions' timers. A delivered message goes to a function that the caller gives.
-/
namespace Sys2Proof.Machine

/-! ### Times and planes -/

/-- Q0 cycles in a second (R48): the clock of the stamps by which a second is judged. -/
def secondCycles : Nat := 2250000000

/-- Stamps of the last `n` seconds. -/
def State.recent (s : State) (n stamp : Nat) : Bool := decide (s.stamp 4 < stamp + n * secondCycles)

/-! ### Packets without a session of their own (R476, R483–R485) -/

/-- An unsequenced packet to an address and UDP port (0: the Miornal port), outside any slot; it carries no acknowledgement. -/
def State.sendRawTo (s : State) (plane kind udp : Nat) (addr : BitVec 128) (session epoch typ : Nat) (cmd : W64) (payload : Bytes) : State :=
  let (s, frame) := s.sendFrame plane kind 0 udp addr (72 + payload.length)
  let p : Sent := { plane := plane, frame := frame, addr := addr, flags := 0, typ := typ, session := session, epoch := epoch, seq := 0,
                    ack := 0, sack := 0, cmd := cmd, ce := 0, payload := payload, tag := [] }
  State.count { s with mrn := { s.mrn with out := s.mrn.out ++ [p] } } (pgMRN (planeEngine plane)) 0 1

def State.sendRaw (s : State) (plane kind : Nat) (addr : BitVec 128) (session epoch typ : Nat) (cmd : W64) (payload : Bytes) : State :=
  s.sendRawTo plane kind 0 addr session epoch typ cmd payload

/-- OPEN_REFUSED to the sender of a HELLO (R470, R484, R487, R503, R607). -/
def State.refuseHello (s : State) (p : Packet) (code : W16) : State :=
  s.sendRaw (portPlane p.port) (leAt p.payload 0 1) p.src (leAt p.payload 4 4) 0 0x0005 0 (leBytes 2 code.toNat)

/-- CLOSE carrying SESSION_UNKNOWN, at most 1,000 a second on each port (R476). -/
def State.answerStray (s : State) (p : Packet) : State :=
  let n := s.mrn.strays.get 0 p.port
  if 1000 ≤ n then s
  else State.sendRaw { s with mrn := { s.mrn with strays := s.mrn.strays.set 0 p.port (n + 1) } } (portPlane p.port) 0 p.src
    (Config.strayId p.session) p.epoch 0x000A 0 (leBytes 2 0x0501)

/-! ### Admission (R476) -/

/-- Unsequenced types (R477). -/
def unsequenced (typ : Nat) : Bool := decide (typ < 0x0100)

/-- The types of the catalogue (R493). -/
def typeKnown (typ : Nat) : Bool :=
  let last := [0x0B, 0x09, 0x04, 0x03, 0x07].getD (typ / 256) 0
  typ == 0x0110 || typ == 0x0111 || (decide (1 ≤ typ) && decide (typ < 0x0500) && decide (typ % 256 ≤ last))

/-- The type may be sent on a session of the kind (R493). -/
def typeFits (typ kind : Nat) : Bool :=
  if typ == 0x0002 || typ == 0x0003 then kind == 0 else typ / 256 == 0 || typ / 256 == kind + 1

/-- The length of a HELLO of a kind (R483, R485). -/
def helloLen (kind : Nat) : Nat := if kind == 0 then 96 else 40

/-- Step 2, but for what the session's kind decides. -/
def Packet.malformed (p : Packet) (typ : Nat) : Bool :=
  let tagged := p.flags.getLsbD 2
  p.version != 1 || !(typeKnown typ) || decide (16 ≤ p.flags.toNat) || p.reserved != 0 || p.len != p.payload.length || decide (8960 < p.len)
    || p.tag.length != (if tagged then 16 else 0) || ((typ == 0x0001) != (p.session == 0))
    || (typ == 0x0001 && (tagged || decide (3 < leAt p.payload 0 1) || p.payload.length != helloLen (leAt p.payload 0 1)))

/-- The header and payload as sent. -/
def Packet.bytes (p : Packet) (typ : Nat) : Bytes :=
  mrnHeader p.version p.flags.toNat typ p.session p.epoch p.seq p.ack p.sack p.cmd p.len p.ceCount p.reserved ++ p.payload

/-- Step 4: a packet after OPEN_OK on a CONTROL session carries a tag that verifies (R475). -/
def Session.tagOk (x : Session) (p : Packet) (typ : Nat) : Bool :=
  x.kind != 0 || x.epoch == 0 || (!x.keyRx.isEmpty && p.flags.getLsbD 2 && p.tag == mrnTag x.keyRx (p.bytes typ))

/-- The slot in use that a packet names on its engine and plane. -/
def State.slotOf (s : State) (plane id : Nat) : Option Nat :=
  (s.mrn.sessions.find? fun kv =>
    kv.2.id == id && kv.2.state != .CL && kv.2.plane == plane && kv.1 / 4096 == planeEngine plane).map (·.1)

/-- A tag that fails: counted, and E18 at the 16th within one second (R476). -/
def State.tagFailed (s : State) (i : Nat) : State :=
  let x := s.session i
  let s := s.count (pgMRN x.engine) 6 1
  let l := (x.tagFails.filter (s.recent 1)) ++ [s.stamp 4]
  if 16 ≤ l.length then s.lose i else s.setSession i { x with tagFails := l }

/-! ### Resynchronisation (R488, R489, R491) -/

/-- A session that carries sequenced messages. -/
def Session.carries (x : Session) : Bool := x.state == .OP || x.state == .SU || x.state == .RS || x.state == .DR

/-- Queued messages leave, as far as the windows let them; while the module is paused no new data leaves (R586). At the end of the
sequence numbers the session resynchronises (R491). -/
def State.settle (s : State) (i : Nat) : State :=
  let x := s.session i
  let s := if s.paused && decide (2 ≤ x.kind) then s else State.flushQueued i x.queued.length s
  let x := s.session i
  if x.spent then s.resyncNeeded i else s

/-! ### Acknowledgements (R444, R478–R481) -/

/-- An acknowledgement names a sequence number. -/
def ackNames (ack : Nat) (sack : BitVec 256) (seq : Nat) : Bool :=
  decide (seq ≤ ack) || (decide (ack + 2 ≤ seq) && sack.getLsbD (seq - ack - 2))

/-- Some sequence number that was never sent is acknowledged. -/
def Session.ackBeyond (x : Session) (p : Packet) : Bool :=
  decide (x.txNext ≤ p.ack) || decide (2 ^ (x.txNext - (p.ack + 2)) ≤ p.sack.toNat)

/-- Bytes of a message as the congestion window counts them. -/
def Session.msgBytes (x : Session) (m : OutMsg) : Nat := 72 + m.msg.payload.length + (if x.kind == 0 then 16 else 0)

/-- The window grows by 9,216 bytes for each W bytes acknowledged. -/
def growWindow : Nat → Nat → Nat → Nat × Nat
  | 0, w, n => (w, n)
  | fuel + 1, w, n => if w ≤ n then growWindow fuel (min 0x1000000 (w + 9216)) (n - w) else (w, n)

/-- The congestion window after an acknowledgement of `n` bytes more (R444). -/
def Session.window_ (x : Session) (n : Nat) (marked loss : Bool) : Session :=
  let x := { x with cutAcked := x.cutAcked + n, lossAcked := x.lossAcked + n }
  let x := if marked && decide (x.window ≤ x.cutAcked) then
      { x with window := max 0x10000 (x.window - x.window / 8), cutAcked := 0 } else x
  let x := if loss && decide (x.window ≤ x.lossAcked) then { x with window := max 0x10000 (x.window / 2), lossAcked := 0 } else x
  if marked || loss then x
  else
    let (w, r) := growWindow 64 x.window (x.winAcked + n)
    { x with window := w, winAcked := r }

/-- What three acknowledged packets of higher number show to be lost, of a packet sent again those since then (R481; DEDUCED, log entry 90). -/
def Session.lost (x : Session) : List OutMsg := x.out.filter fun m => !m.sacked && decide (3 ≤ m.above)

/-- A lost packet is sent again (A4). -/
def State.resend (s : State) (i : Nat) (m : OutMsg) : State :=
  let x := s.session i
  let s := s.setSession i { x with out := x.out.map fun (k : OutMsg) => if k.seq == m.seq then { k with retx := true, above := 0 } else k }
  (s.emit i m.msg.typ m.seq m.msg true).count (pgMRN x.engine) 2 1

/-- E7: these packets are lost. -/
def State.lossAt (s : State) (i : Nat) (lost : List OutMsg) : State :=
  s.fire { Acts.plain State.failSession with again := fun s i => lost.foldl (fun s m => s.resend i m) s } 7 i

/-- An acknowledgement that is admitted: progress, losses, the window, and what may leave now. -/
def State.takeAck (s : State) (i : Nat) (p : Packet) : State :=
  let x := s.session i
  let fresh := x.out.filter fun m => !m.sacked && ackNames p.ack p.sack m.seq
  let n := fresh.foldl (fun k m => k + x.msgBytes m) 0
  let out := (x.out.filter fun m => decide (p.ack < m.seq)).map fun (m : OutMsg) =>
    { m with sacked := m.sacked || ackNames p.ack p.sack m.seq,
             above := m.above + (fresh.filter fun k => decide (m.seq < k.seq)).length }
  let x := { x with out := out }
  let lost := x.lost
  let s := s.setSession i (x.window_ n (p.ceCount != 0) (!lost.isEmpty))
  (if lost.isEmpty then s else s.lossAt i lost).settle i

/-! ### Receiving (R477, R479) -/

/-- Messages received in order become ready. -/
def Session.inOrder : Nat → Session → Session
  | 0, x => x
  | fuel + 1, x =>
    match x.held.find (x.rxAck + 1) with
    | some m => Session.inOrder fuel { x with rxAck := x.rxAck + 1, held := x.held.del (x.rxAck + 1), ready := x.ready ++ [m] }
    | none => x

/-- Ready messages go to their users, in order; those of BULK and PEER sessions wait while the module is paused (R586). -/
def State.deliverReady (d : State → Nat → Msg → State) (i id : Nat) : Nat → State → State
  | 0, s => s
  | fuel + 1, s =>
    let x := s.session i
    match x.ready with
    | [] => s
    | m :: rest =>
      if x.id != id || (s.paused && decide (2 ≤ x.kind)) then s
      else State.deliverReady d i id fuel (d (s.setSession i { x with ready := rest }) i m)

/-- An ACK message. -/
def State.ackNow (s : State) (i : Nat) : State := s.sendPlain i 0x0006 []

/-- A chunk whose CRC-32C does not match (R504). -/
def badChunk (m : Msg) : Bool :=
  m.typ == 0x0300 && (crc32c (m.payload.drop 24)).toNat != leAt m.payload 16 4

/-- A3 for a sequenced message inside the window: placed, delivered in order, acknowledged. -/
def State.takeSeq (d : State → Nat → Msg → State) (s : State) (i : Nat) (p : Packet) (typ : Nat) : State :=
  let m : Msg := ⟨typ, p.cmd, p.payload⟩
  if badChunk m then s
  else
    let x := s.session i
    let x := Session.inOrder 257 { x with held := x.held.put p.seq m, unackedRx := x.unackedRx + 1 }
    let gap := !x.held.isEmpty
    let s := State.deliverReady d i x.id x.ready.length (s.setSession i x)
    let y := s.session i
    if y.id == x.id && y.carries && (decide (16 ≤ y.unackedRx) || ((gap || p.flags.getLsbD 3) && y.unackedRx != 0)) then s.ackNow i
    else s

/-- What step 7 of R476 finds: the number fits the receive window, has been received already, or lies beyond the window. -/
inductive SeqFate where
  | fits | again | beyond
deriving DecidableEq, Repr

def Session.seqFate (x : Session) (seq : Nat) : SeqFate :=
  if seq ≤ x.rxAck || (x.held.find seq).isSome then .again else if x.rxAck + 257 < seq then .beyond else .fits

/-- A3: the acknowledgement's progress, and the message. -/
def State.hear (d : State → Nat → Msg → State) (p : Packet) (typ : Nat) (acks : Bool) (s : State) (i : Nat) : State :=
  let x := s.session i
  let s := s.setSession i { x with deadRunning := false }
  let s := if acks then s.takeAck i p else s
  if unsequenced typ then s else s.takeSeq d i p typ

/-- Step 8 for what is not sequenced: RESYNC (E11), RESYNC_ACK (E12), CLOSE (E16), CLOSE_ACK (E17), and what asks for an acknowledgement. -/
def State.takePlain (s : State) (i : Nat) (p : Packet) (typ : Nat) : State :=
  let x := s.session i
  let e := leAt p.payload 0 4
  let adopt (ev : Nat) : State := (s.fire { Acts.plain State.failSession with epoch := e } ev i).settle i
  if typ == 0x0008 then (if x.epoch < e || (x.state == .RS && e == x.epoch) then adopt 11 else s)
  else if typ == 0x0009 then (if e == x.epoch then adopt 12 else s)
  else if typ == 0x000A then s.event 16 i
  else if typ == 0x000B then s.event 17 i
  else if (typ == 0x0007 || p.flags.getLsbD 3) && x.carries && x.state != .RS then s.ackNow i
  else s

/-- A CE-marked packet counts until the next acknowledgement reports it (R443, R473). -/
def State.noteMark (s : State) (i : Nat) (ce : Bool) : State :=
  let x := s.session i
  s.setSession i { x with ceCount := x.ceCount + b2n ce }

/-- Steps 6 to 8. What fails step 6 or 7 changes nothing but as the table says; in RS both are judged as the packet would find the session
once its epoch is adopted, which E6 does. While the module is paused, received BULK_DATA and TILE_SEG are discarded without an acknowledgement
(R586). -/
def State.takePacket (d : State → Nat → Msg → State) (s : State) (i : Nat) (p : Packet) (typ : Nat) : State :=
  let x := s.session i
  if s.paused && (typ == 0x0300 || typ == 0x0400) then s else
  let y := if x.state == .RS then x.adopt x.epoch else x
  let acks := p.flags.getLsbD 0 && !(typ == 0x0008 || typ == 0x0009 || (x.state == .RS && typ == 0x000A))
  if acks && y.ackBeyond p then s.resyncNeeded i
  else
    match if unsequenced typ then .fits else y.seqFate p.seq with
    | .again => ((s.count (pgMRN x.engine) 3 1).noteMark i p.ce).ackNow i
    | .beyond => (s.count (pgMRN x.engine) 4 1).resyncNeeded i
    | .fits =>
      let s := s.noteMark i p.ce
      let s := if acks || !unsequenced typ then
          s.fire { Acts.plain State.failSession with receive := State.hear d p typ acks, epoch := x.epoch } 6 i
        else s
      let s := if x.state == .RS then s.settle i else s
      let s := if unsequenced typ then s.takePlain i p typ else s
      if (s.session i).id == x.id then s.drainEnd i else s

/-! ### The end of opening (R483, R485–R488) -/

/-- The owner or vendor key that a slot number names in the present life-cycle state (R616). -/
def State.proofKey (s : State) (slot : Nat) : Option Bytes :=
  let t := s.trust
  let f := t.fuses
  if f.lc == 1 || f.lc == 2 then (if f.ownersOff then none else f.ownerKeys.find slot)
  else if (f.lc == 0 || f.lc == 3) && decide (slot < 4) && !bit f.revoked slot then
    some (match t.running with
      | some img => if leAt img 5 1 == slot then (img.drop 0x10).take 57 else fitBytes 57 (Config.vendorKey slot)
      | none => fitBytes 57 (Config.vendorKey slot))
  else none

/-- A refusal for AUTH_FAILED is counted and raised (R487). -/
def State.countAuth (s : State) (e arg : Nat) : State := (s.count (pgMRN e) 9 1).raise (pgMRN e) 1 arg

/-- A PROVE that does not verify (R485, R487): the eighth from one address within 60 s begins a lockout. -/
def State.proofFailed (s : State) (i : Nat) : State :=
  let x := s.session i
  let s := (s.sendRaw x.plane x.kind x.addr x.peerId 0 0x0005 0 (leBytes 2 0x0507)).countAuth x.engine x.id
  let l := (s.mrn.authFails.filter fun a => s.recent 60 a.2) ++ [(x.addr, s.stamp 4)]
  let n := (l.filter fun a => a.1 == x.addr).length
  let s := if 8 ≤ n then
      { s with mrn := { s.mrn with authFails := l.filter (fun a => a.1 != x.addr), lockouts := s.mrn.lockouts ++ [(x.addr, s.stamp 4)] } }
    else { s with mrn := { s.mrn with authFails := l } }
  s.event 5 i

/-- The two direction keys (R486): host to module, module to host. -/
def directionKeys (z h : Bytes) : Bytes × Bytes :=
  (kmac256 z h 32 (ascii "MRN host"), kmac256 z h 32 (ascii "MRN module"))

/-- PROVE (R485): E3 or E5. -/
def State.takeProve (s : State) (i : Nat) (p : Packet) : State :=
  let x := s.session i
  let ok := match s.proofKey (leAt p.payload 0 1) with
    | some key => p.payload.length == 115 && edVerify key x.transcript (p.payload.drop 1)
    | none => false
  if !ok then s.proofFailed i
  else
    let z := x448 (fitBytes 56 (Config.entropy x.secret 56)) x.peerKey
    let k := directionKeys z x.transcript
    let s := s.sendRaw x.plane x.kind x.addr x.peerId 0 0x0004 0 (leBytes 4 x.id)
    s.fire { Acts.plain State.failSession with
      establish := fun s i => s.setSession i { s.session i with epoch := 1, keyRx := k.1, keyTx := k.2, secret := 0, peerKey := [] } } 3 i

/-- A2 but for a CONTROL session's keys: the epoch is 1, and what waited for the session leaves. -/
def State.establish (peer : Nat) (s : State) (i : Nat) : State :=
  let s := (s.setSession i { s.session i with epoch := 1, peerId := peer }).settle i
  let x := s.session i
  if x.kind == 3 then s.flushPeer x.rank else s

/-- A BULK session whose operation is over has no user left, and closes (E14) once it has sent what waited for it (R383, R509; log entry
126). -/
def State.closeIdle (s : State) (i : Nat) : State :=
  let x := s.session i
  if x.kind == 2 && x.state == .OP && (match s.findOp x.opId with | some o => !o.live | none => true) then s.closeLocal i else s

/-- PROVE, OPEN_OK and OPEN_REFUSED for a session that is opening (E3–E5). -/
def State.takeOpening (s : State) (i : Nat) (p : Packet) (typ : Nat) : State :=
  let x := s.session i
  if typ == 0x0003 then (if x.kind == 0 && !x.opener then s.takeProve i p else s)
  else if !x.opener then s
  else if typ == 0x0004 then
    (s.fire { Acts.plain State.failSession with establish := State.establish (leAt p.payload 0 4) } 4 i).closeIdle i
  else s.event 5 i

/-! ### HELLO (R483–R487, R503, R507, R606, R607) -/

/-- A1 (R489): CHALLENGE for a CONTROL session, else OPEN_OK. -/
def State.answer (s : State) (i : Nat) : State :=
  let x := s.session i
  if x.kind == 0 then s.sendRaw x.plane x.kind x.addr x.peerId 0 0x0002 0 x.hello
  else s.sendRawTo x.plane x.kind (s.peerUdp x) x.addr x.peerId 0 0x0004 0 (leBytes 4 x.id)

/-- E1 and E2: a HELLO at a slot of its own, new or that of a repeat. -/
def State.answerHello (s : State) (e i : Nat) : State :=
  s.fire { Acts.plain State.failSession with answer := State.answer, establish := State.establish (s.session i).peerId } e i

/-- The module's answer to a HELLO that opens a CONTROL session. -/
def State.challenge (s : State) (p : Packet) : State :=
  let plane := portPlane p.port
  let (id, s) := s.newId
  let (nonce, s) := s.drawBytes 16
  let (d, s) := s.draw
  let pre := leBytes 4 id ++ nonce ++ x448Base (fitBytes 56 (Config.entropy d 56))
  let h := shake256 (p.payload ++ pre) 64
  let sig := if s.trust.fuses.idKey then edSign (fitBytes 57 (Config.identitySeed 0)) h else fitBytes 114 (Config.noSignature d)
  let x : Session := { Session.fresh with
    id := id, kind := 0, plane := plane, addr := p.src, peerId := leAt p.payload 4 4, nonce := part p.payload 8 16,
    hello := pre ++ sig, transcript := h, secret := d, peerKey := p.payload.drop 40 }
  let i := s.freeSlot (planeEngine plane)
  (s.setSession i x).answerHello 1 i

/-- The session of the other kinds as it opens at the responder. -/
def State.acceptHello (s : State) (p : Packet) (rank : Nat) (op : W64) : State × Nat :=
  let plane := portPlane p.port
  let (id, s) := s.newId
  let i := s.freeSlot (planeEngine plane)
  let x : Session := { Session.fresh with
    id := id, kind := leAt p.payload 0 1, plane := plane, rank := rank, addr := p.src, peerId := leAt p.payload 4 4,
    nonce := part p.payload 8 16, opId := op }
  ((s.setSession i x).answerHello 2 i, i)

/-- The membership table of the job: the manager's, or as the ROSTER gave it. -/
def State.table (s : State) : List Member := if s.mgr.plan.isSome then s.mgr.members else s.trd.members

/-- The table gives the address for the rank: a worker's, or a spare's for rank 0xFFFF (R484). A ring manager, which opens its session to the
top manager under a rank of its ring, has no entry and so no address in the table: its ring must have one (DESIGN CHOICE, log entry 91). -/
def State.knowsPeer (s : State) (kind rank : Nat) (a : BitVec 128) : Bool :=
  let has (m : Member) : Bool := m.addrA == a || m.addrB == a
  if kind == 3 then decide (rank < s.ownRank) && s.table.any fun m => !m.spare && m.rank == rank && has m
  else if rank == 0xFFFF then s.table.any has
  else (s.table.any fun m => !m.spare && m.rank == rank && has m) || (s.headsTrunk && s.table.any fun m => ringRank m.ring == rank)

/-- A MEMBERSHIP or PEER HELLO with a new nonce. -/
def State.rankHello (s : State) (p : Packet) (kind : Nat) : State :=
  let rank := leAt p.payload 24 2
  let plane := portPlane p.port
  if !(s.knowsPeer kind rank p.src) then s.refuseHello p 0x050E
  else
    let old := s.mrn.sessions.keysWhere fun (x : Session) =>
      x.kind == kind && x.plane == plane && x.rank == rank && x.carries && (rank != 0xFFFF || x.addr == p.src)
    let s := old.foldl State.lose s
    if s.kindFull kind plane then s.refuseHello p 0x0509 else (s.acceptHello p rank 0).1

/-- A BULK_JOURNAL of a receiver, with its journal as it stands. -/
def State.sendJournal (s : State) (id : W64) : State :=
  match s.findOp id with
  | some o => (s.putOp { o with journalSent := o.journal }).sendOp o 0x0301 (leBytes 8 id.toNat ++ leBytes 8 o.journal)
  | none => s

/-- An IMAGE operation without a command, in RECOVERY_LISTEN (R606). -/
def BulkOp.recovery (peer : BitVec 128) : BulkOp :=
  { id := 0, sends := false, obj := .image, plane := 0, peer := peer, peerPort := 0, length := 0, target := 0, state := .created,
    session := none, data := [], got := [], journal := 0, journalSent := 0, sent := 0, ended := none, err := 0, rank := 0, pos := 0,
    headChecked := false, stream := [], top := 0, window := [] }

/-- In RECOVERY_LISTEN operation 0 begins anew unless one is in progress. -/
def State.listenOp (s : State) (p : Packet) (id : W64) : State :=
  if !s.trust.recovery || id != 0 || (match s.findOp 0 with | some o => o.live | none => false) then s
  else { s with mrn := { s.mrn with ops := (s.mrn.ops.filter fun o => o.id != 0) ++ [BulkOp.recovery p.src] } }

/-- The operation has an open session. -/
def State.opBusy (s : State) (o : BulkOp) : Bool :=
  match o.session with | some i => (s.session i).carries | none => false

/-- A BULK HELLO with a new nonce: one for an image while a tamper bit is set is refused (R619); else the operation is bound; one that was held resumes with the journal. -/
def State.bulkHello (s : State) (p : Packet) : State :=
  let id : W64 := BitVec.ofNat 64 (leAt p.payload 32 8)
  let plane := portPlane p.port
  let image := s.trust.recovery || (match s.findOp id with | some o => o.obj == .image | none => false)
  if image && s.trust.tamper != 0 then s.refuseHello p 0x0702 else
  let s := s.listenOp p id
  match s.findOp id with
  | none => s.refuseHello p 0x050B
  | some o =>
    if s.opBusy o then s.refuseHello p (if s.trust.recovery then 0x0705 else 0x050F)
    else if !o.live || o.sends then s.refuseHello p 0x050B
    else if s.kindFull 2 plane then s.refuseHello p 0x0509
    else
      let (s, i) := s.acceptHello p 0 id
      let s := s.putOp { o with state := .bound, session := some i }
      if o.state == .held then (s.count (pgMRN (planeEngine plane)) 16 1).sendJournal id else s

/-- A HELLO that matches a slot is answered as before, where the slot still stands as the answer left it (E1, E2). -/
def State.repeatHello (s : State) (i : Nat) : State :=
  s.answerHello (if (s.session i).kind == 0 then 1 else 2) i

/-- The slot that an earlier HELLO with the same nonce opened. -/
def State.helloSeen (s : State) (p : Packet) : Option Nat :=
  (s.mrn.sessions.find? fun kv =>
    !kv.2.opener && kv.2.state != .CL && kv.2.kind == leAt p.payload 0 1 && kv.2.plane == portPlane p.port && kv.2.addr == p.src
      && kv.2.nonce == part p.payload 8 16).map (·.1)

/-- The address is locked out (R487). -/
def State.lockedOut (s : State) (a : BitVec 128) : Bool := s.mrn.lockouts.any fun l => l.1 == a && s.recent 60 l.2

/-- The HELLO that RECOVERY_LISTEN accepts (R606). -/
def Packet.recoveryHello (p : Packet) : Bool := leAt p.payload 0 1 == 2 && leAt p.payload 32 8 == 0

def State.takeHello (s : State) (p : Packet) : State :=
  let kind := leAt p.payload 0 1
  let plane := portPlane p.port
  if s.lockedOut p.src then (s.refuseHello p 0x0507).countAuth (planeEngine plane) 0
  else if s.trust.recovery && !p.recoveryHello then s.refuseHello p 0x0705
  else
    match s.helloSeen p with
    | some i => s.repeatHello i
    | none =>
      if kind == 0 then
        if s.trust.fuses.lc == 4 then s.refuseHello p 0x0705
        else if s.kindFull 0 plane then s.refuseHello p 0x0509
        else s.challenge p
      else if kind == 2 then s.bulkHello p
      else s.rankHello p kind

/-! ### A packet arrives -/

/-- The engines are powered, and the port takes packets: in RECOVERY_LISTEN only port 0 and the management port (R606), and on the
management port only CONTROL sessions otherwise (R469). -/
def State.takesPackets (s : State) (p : Packet) (typ : Nat) : Bool :=
  (s.power.pg || s.trust.recovery) && (p.port == 8 || (decide (p.port < 8) && s.inService (pgETH p.port)))
    && (!s.trust.recovery || p.port == 8 || p.port == 0)
    && (p.port != 8 || s.trust.recovery || (decide (typ < 0x0200) && (typ != 0x0001 || leAt p.payload 0 1 == 0)))

/-- Steps 4 and 5 on a slot, then the session table. Every sequenced packet of a session is recorded as it has come (R658). -/
def State.receiveAt (d : State → Nat → Msg → State) (s : State) (p : Packet) (typ i : Nat) : State :=
  let x := s.session i
  let s := if unsequenced typ then s else s.pktRecord i 0x0111 x.id p.seq typ p.epoch (p.flags.getLsbD 1) p.port
  if !(typeFits typ x.kind) || (x.kind != 0 && p.flags.getLsbD 2) then s.count (pgMRN x.engine) 8 1
  else if !(x.tagOk p typ) then s.tagFailed i
  else if x.state == .OG && (typ == 0x0003 || typ == 0x0004 || typ == 0x0005) then s.takeOpening i p typ
  else if x.state != .OG && !(typ == 0x0008 || typ == 0x0009) && p.epoch != x.epoch then s.count (pgMRN x.engine) 5 1
  else s.takePacket d i p typ

/-- A received packet of a type (R476). `stray` answers a packet that names no slot. -/
def State.receiveWith (d : State → Nat → Msg → State) (stray : State → State) (s : State) (p : Packet) (typ : Nat) : State :=
  if !(s.takesPackets p typ) then s else
  let e := planeEngine (portPlane p.port)
  let s := s.count (pgMRN e) 1 1
  if p.malformed typ then s.count (pgMRN e) 8 1
  else if typ == 0x0001 then s.takeHello p
  else
    match s.slotOf (portPlane p.port) p.session with
    | some i => s.receiveAt d p typ i
    | none =>
      let s := s.count (pgMRN e) 7 1
      if typ == 0x000A || typ == 0x000B then s else stray s

/-- Received with the usual answer to a stray packet. -/
def State.receive (d : State → Nat → Msg → State) (s : State) (p : Packet) (typ : Nat) : State :=
  s.receiveWith d (fun s => s.answerStray p) p typ

/-! ### Timers (R479, R481, R483, R488–R490) -/

/-- A4 and A5: PROBE with ACK_NOW. -/
def State.sendProbe (s : State) (i : Nat) : State := s.sendPlain i 0x0007 []

/-- T_SUS_EXPIRY: E8. -/
def execTSusExpiry (i : Nat) (s : State) : Host.Outcome State Fault Refusal :=
  .next (s.event 8 i)

/-- IDLE_PROBE (R490): nothing has been sent for T_SUS / 2. -/
def execIdleProbe (i : Nat) (s : State) : Host.Outcome State Fault Refusal :=
  .next (match (s.session i).state with | .OP | .SU | .DR => s.sendProbe i | _ => s)

/-- T_DEAD_EXPIRY: E9. -/
def execTDeadExpiry (i : Nat) (s : State) : Host.Outcome State Fault Refusal :=
  .next (if (s.session i).deadRunning then s.event 9 i else s)

/-- T_OPEN_EXPIRY: E5 and E13. -/
def execTOpenExpiry (i : Nat) (s : State) : Host.Outcome State Fault Refusal :=
  .next (s.event (if (s.session i).state == .OG then 5 else 13) i)

/-- HELLO_REPEAT (R483). -/
def execHelloRepeat (i : Nat) (s : State) : Host.Outcome State Fault Refusal :=
  .next (
    let x := s.session i
    if x.state == .OG && x.opener then s.sendPlain i 0x0001 x.hello else s)

/-- RESYNC_REPEAT (A6). -/
def execResyncRepeat (i : Nat) (s : State) : Host.Outcome State Fault Refusal :=
  .next (
    let x := s.session i
    if x.state == .RS then s.sendPlain i 0x0008 (leBytes 4 x.epoch) else s)

/-- CLOSE_REPEAT (A9). -/
def execCloseRepeat (i : Nat) (s : State) : Host.Outcome State Fault Refusal :=
  .next (if (s.session i).state == .CG then s.sendPlain i 0x000A (zeros 2) else s)

/-- ACK_DELAY_EXPIRY (R479). -/
def execAckDelayExpiry (i : Nat) (s : State) : Host.Outcome State Fault Refusal :=
  .next (
    let x := s.session i
    if x.unackedRx != 0 && (x.state == .OP || x.state == .SU || x.state == .DR) then s.ackNow i else s)

/-- RETRANSMISSION_TIMEOUT (R481): the oldest packet that is not acknowledged is sent again. -/
def execRetransmissionTimeout (i : Nat) (s : State) : Host.Outcome State Fault Refusal :=
  .next (
    match (s.session i).out.find? fun m => !m.sacked with
    | some m => s.lossAt i [m]
    | none => s)

end Sys2Proof.Machine
end

