-- ==== Sys2Proof/Machine/Bulk.lean ====
section
/-!
DEFINITION. Long operations as their messages arrive (R503–R509, R568–R570, R604): chunks, journals, the end of an object, and the
operations' timers.
-/
namespace Sys2Proof.Machine

/-! ### What a receiver holds (R505) -/

/-- A run of bytes joins those held, as disjoint runs (first byte, byte past the last) in rising order. -/
def joinRun (a b : Nat) : List (Nat × Nat) → List (Nat × Nat)
  | [] => [(a, b)]
  | (c, d) :: rest =>
    if b < c then (a, b) :: (c, d) :: rest
    else if d < a then (c, d) :: joinRun a b rest
    else joinRun (min a c) (max b d) rest

/-- The length of the longest prefix that is held. -/
def BulkOp.prefix_ (o : BulkOp) : Nat :=
  match o.got with
  | (0, d) :: _ => d
  | _ => 0

/-- Bytes of the object that have arrived. -/
def BulkOp.bytes (o : BulkOp) (off n : Nat) : Bytes := o.data.range 0 off n

/-! ### Restoring (R568–R570) -/

/-- CK_HEAD_LEN, once it has arrived. -/
def BulkOp.headLen (o : BulkOp) : Option Nat :=
  if o.prefix_ < 0x3C then none else some (leAt (o.bytes 0x38 4) 0 4)

/-- The bytes of a run of the shard that belong to its ranges go to their addresses. -/
def State.placeRanges (s : State) (o : BulkOp) (off n : Nat) : Nat → List CkptEntry → State
  | _, [] => s
  | at_, e :: rest =>
    let lo := max off at_
    let hi := min (off + n) (at_ + e.bytes)
    let s := if lo < hi then s.store (e.addr + (lo - at_)) (o.bytes lo (hi - lo)) none else s
    State.placeRanges s o off n (at_ + e.bytes) rest

/-- The journal that a receiver may report: for a RESTORE it covers the head only after its checks. -/
def BulkOp.journalNow (o : BulkOp) : Nat := if o.obj == .restore && !o.headChecked then 0 else o.prefix_

/-- A head that has arrived whole is staged and checked; the ranges that have arrived with it are written. A failing check ends the
operation with its code. -/
def State.checkHead (s : State) (o : BulkOp) (len : Nat) : State :=
  let h := o.bytes 0 len
  let s := if s.backedRange o.target len then s.store o.target h none else s
  match if s.job.state == .restoreWait then s.headCheck h else some 0x0114 with
  | some c => s.endOp o.id c true
  | none =>
    let o := { o with headChecked := true }
    let s := State.putOp { s with snap := { s.snap with rState := 2 } } { o with journal := o.prefix_ }
    match s.job.ckpt with
    | some ct => o.got.foldl (fun s r => State.placeRanges s o r.1 (r.2 - r.1) len ct.entries) s
    | none => s

/-- New bytes of a RESTORE. -/
def State.restoreData (s : State) (o : BulkOp) (off n : Nat) : State :=
  match o.headLen with
  | none => s
  | some len =>
    if o.headChecked then
      (match s.job.ckpt with | some ct => State.placeRanges s o off n len ct.entries | none => s)
    else if len ≤ o.prefix_ then s.checkHead o len
    else s

/-! ### The end of an object (R509) -/

/-- An object has arrived whole and its CRC-32C matches: what its kind does with it. -/
def State.useObject (s : State) (o : BulkOp) (total : Nat) : State :=
  match o.obj with
  | .image =>
    let (s, err) := s.installImage o.id (o.bytes 0 total)
    (match err with | some c => s.endOp o.id c true | none => s)
  | .restore =>
    (match o.headChecked, o.headLen, s.job.ckpt with
     | true, some len, some ct =>
       let h := o.bytes 0 len
       ((s.dropOp o .done 0).applyHead h ct).sendStatus 6 0 (leAt h 8 8)
     | _, _, _ => s.endOp o.id 0x0114 true)
  | _ => s.dropOp o .done 0

/-- The firmware slot has been programmed and read back, once no CAP_TEST runs (R604, R663): the operation completes, and the reset follows
100 ms later. That it is a cycle without a command which ends the programming is the model's choice (DESIGN CHOICE, log entry 121). -/
def State.finishSlot (s : State) : State :=
  match s.trust.slotWrite with
  | none => s
  | some (op, img) =>
    if s.capTesting then s else
    let s := State.keepWritten { s with trust := { s.trust with fw := img, imageTimer := true, slotWrite := none } }
    let s := match s.findOp op with | some o => if o.live then s.dropOp o .done 0 else s | none => s
    s.mntExamine

/-- An operation whose image is being programmed. -/
def State.programs (s : State) (id : W64) : Bool := s.trust.slotWrite.any fun w => w.1 == id

/-- The operation is complete once the journal has reached the total length. A restore whose object ends before its head is whole is judged
as its head is (R569). -/
def State.tryComplete (s : State) (id : W64) : State :=
  match s.findOp id with
  | none => s
  | some o =>
    match o.ended with
    | none => s
    | some (total, crc) =>
      if !o.live || o.sends || (o.obj == .image && s.programs id) then s
      else if o.obj == .restore && !o.headChecked && decide (total ≤ o.prefix_) then
        s.endOp id ((s.headCheck (o.bytes 0 total)).getD 0x0114) true
      else if o.journal < total then s
      else if crc32c (o.bytes 0 total) != crc then s.endOp id 0x0301 true
      else s.useObject o total

/-! ### Delivered messages -/

/-- The operation of a BULK session, where the message names it. -/
def State.opOn (s : State) (i : Nat) (p : Bytes) : Option BulkOp :=
  let id : W64 := BitVec.ofNat 64 (leAt p 0 8)
  match s.findOp id with
  | some o => if o.live && o.session == some i && (s.session i).opId == id then some o else none
  | none => none

/-- BULK_DATA (R504, R505): the chunk is placed, and the journal moves on. -/
def State.takeChunk (s : State) (i : Nat) (p : Bytes) : State :=
  match s.opOn i p with
  | none => s
  | some o =>
    let off := leAt p 8 8
    let bs := p.drop 24
    if o.sends || bs.length != leAt p 20 4 || bs.isEmpty || decide (8192 < bs.length) || off % 8192 != 0
        || (o.length != 0 && decide (o.length < off + bs.length)) then s
    else
      let o := { o with data := o.data.setRun 0 off bs, got := joinRun off (off + bs.length) o.got }
      let o := { o with journal := max o.journal o.journalNow }
      let s := s.putOp o
      let s := if o.obj == .restore then s.restoreData o off bs.length else s
      let s := match s.findOp o.id with
        | some o => if o.live && decide (o.journalSent + 16 * 2 ^ 20 ≤ o.journal) then s.sendJournal o.id else s
        | none => s
      s.tryComplete o.id

/-- BULK_END (R509): the receiver answers with its journal. -/
def State.takeEnd (s : State) (i : Nat) (p : Bytes) : State :=
  match s.opOn i p with
  | none => s
  | some o =>
    if o.sends then s else
    let s := (s.putOp { o with ended := some (leAt p 8 8, BitVec.ofNat 32 (leAt p 16 4)) }).sendJournal o.id
    s.tryComplete o.id

/-- A journal at the sender: everything up to it is done with, and the window moves on, from pages of the pool where those held it
(R506, R509). -/
def State.moveWindow (s : State) (o : BulkOp) (off : Nat) : State :=
  let past := o.window.length - (o.stream.length / 65536 - off / 65536)
  let s := s.freePool (o.window.take past)
  let o := { o with journal := off, window := o.window.drop past }
  if o.ended.isSome && decide (o.length ≤ off) then
    let s := s.dropOp o .done 0
    if o.obj == .dump && s.trace.held.any (fun h => h.1 == o.target) then { s with trace := { s.trace with held := none } } else s
  else (s.putOp o).pump o.id

/-- BULK_JOURNAL at the sender: after a resume the stream continues from it, or ends where the window no longer holds it (R508). -/
def State.takeJournal (s : State) (i : Nat) (p : Bytes) : State :=
  match s.opOn i p with
  | none => s
  | some o =>
    let off := leAt p 8 8
    if !o.sends then s
    else if o.state == .held then
      let s := s.count (pgMRN (s.session i).engine) 16 1
      if off < o.journal then s.endOp o.id 0x050A true
      else
        let off := min off o.top
        s.moveWindow { o with state := .bound, sent := off, ended := if off < o.length then none else o.ended } off
    else if o.journal ≤ off ∧ off ≤ o.top then s.moveWindow { o with sent := max o.sent off } off
    else s

/-- BULK_ABORT (R509). -/
def State.takeBulkAbort (s : State) (i : Nat) (p : Bytes) : State :=
  match s.opOn i p with
  | some o => s.endOp o.id (BitVec.ofNat 16 (leAt p 8 2)) false
  | none => s

/-! ### Timers (R505, R507) -/

/-- BULK_HOLD_EXPIRY (R507). -/
def execBulkHoldExpiry (op : W64) (s : State) : Host.Outcome State Fault Refusal :=
  .next (
    match s.findOp op with
    | some o => if o.state == .held then s.endOp op 0x050C false else s
    | none => s)

/-- BULK_HELLO_REPEAT (R507): for a held operation that the module sends, HELLO goes out anew. -/
def execBulkHelloRepeat (op : W64) (s : State) : Host.Outcome State Fault Refusal :=
  .next (
    match s.findOp op with
    | some o => if o.state == .held && o.sends && o.session.isNone then s.openOp op else s
    | none => s)

/-- BULK_JOURNAL_TIMER (R505): 1 ms after the journal last grew. -/
def execBulkJournalTimer (op : W64) (s : State) : Host.Outcome State Fault Refusal :=
  .next (
    match s.findOp op with
    | some o => if o.state == .bound && !o.sends && o.journal != o.journalSent then s.sendJournal op else s
    | none => s)

end Sys2Proof.Machine
end

