-- ==== Sys2Proof/Machine/Commands.lean ====
section
/-!
DEFINITION. CONTROL commands, exactly once (R493–R500, R503, R608–R610, R654–R656), and the rows of everything that arrives as a packet.
-/
namespace Sys2Proof.Machine

/-! ### Identity and attestation (R18, R608–R610) -/

/-- The part string, zero-padded. -/
def State.partString (s : State) : Bytes :=
  let v := s.trust.fuses.variant
  fitBytes 16 (ascii (if v == 1 then "TQD-4608-X-C1" else if v == 2 then "TQD-4608-T-C1" else if v == 3 then "TQD-4608-G-C1" else "TQD-2304-H-C1"))

def State.identityKey (s : State) : Option Bytes := if s.trust.fuses.idKey then some (fitBytes 57 (Config.identitySeed 0)) else none

def State.identityDigest (s : State) : Bytes :=
  match s.identityKey with
  | some k => shake256 (edPublic k) 32
  | none => zeros 32

/-- The reply to IDENTIFY. -/
def State.identifyData (s : State) : Bytes :=
  s.partString ++ ((List.range 4).flatMap fun i => leBytes 4 (s.capWord i)) ++ leBytes 4 s.mrn.bootCount ++ leBytes 4 s.job.serial
    ++ s.identityDigest

/-- AR_FUSE: the counters as the FUSE page shows them, of revocation the mask (R621). -/
def Fuses.counters (f : Fuses) : Bytes :=
  ([1, 2, 3, 4, 5, 6].flatMap fun c => leBytes 1 (if c == 3 then f.revoked else f.counter c)) ++ zeros 2

/-- The attestation report (R609). -/
def State.report (s : State) (nonce : Bytes) : Bytes :=
  let t := s.trust
  let img := t.running.getD []
  let loaded := s.jobLoaded
  let images := s.stations.map fun e => e.2.img
  let body :=
    leBytes 1 1 ++ leBytes 1 t.fuses.lc ++ leBytes 1 (b2n (t.tamper != 0) + 2 * b2n s.mrn.tableAlt) ++ zeros 1
      ++ leBytes 4 s.mrn.bootCount ++ leBytes 4 (if loaded then s.job.serial else 0) ++ leBytes 4 (leAt img 8 4)
      ++ s.partString ++ t.fuses.counters ++ leBytes 8 t.ledger.length ++ fitBytes 32 nonce ++ (imageDigest img).take 32
      ++ fitBytes 32 (match s.mrn.table with | some t => shake256 t.image 32 | none => Config.tableDigest)
      ++ (if loaded then shake256 (images.flatMap fun i => i.tables.flatten) 32 else zeros 32)
      ++ (if loaded then shake256 (images.flatMap fun i => shake256 i.image 64) 32 else zeros 32)
      ++ s.identityDigest
  let h := shake256 body 64
  let sig := match s.identityKey with | some k => edSign k h | none => fitBytes 114 (Config.noSignature s.free)
  body ++ sig ++ zeros 14

/-- A load or unload is in progress. -/
def State.jobBusy (s : State) : Bool := s.job.state == .loading || s.job.state == .unloading

/-- ATTESTs that waited for the end of a load. -/
def State.runAttests (s : State) : State :=
  if s.jobBusy then s else
  s.job.attests.foldl (fun (s : State) (c : WaitingCmd) => s.finishCmd c.cmd 0 (s.report (part c.payload 8 32)))
    { s with job := { s.job with attests := [] } }

/-! ### Register messages (R9, R373, R499) -/

/-- The code that refuses an access to `n` words, or none. -/
def State.accessError (s : State) (a n : Nat) : Option W16 :=
  if a % 4 != 0 then some 0x0306
  else
    match regionOf a with
    | .registers => if (a - registerBase) / 4096 != (a + 4 * n - 1 - registerBase) / 4096 then some 0x0305 else none
    | .secure => some 0x0305
    | _ => if registerEnd ≤ a ∧ a < 0x040000000000 then some 0x0305 else if s.backed a then some 0x0305 else some 0x0302

/-- `n` words read in ascending order, with what a read does besides. -/
def State.readWords (page : Nat) : Nat → Nat → State → State × Bytes
  | 0, _, s => (s, [])
  | n + 1, off, s =>
    let v := s.readReg page off
    let (t, bs) := State.readWords page n (off + 4) (s.afterRead page off)
    (t, leBytes 4 v.toNat ++ bs)

/-- Words written in ascending order; a change of the life cycle ends the write. -/
def State.writeWords (page : Nat) (origin : W64) : Bytes → Nat → Nat → State → State
  | _, _, 0, s => s
  | bs, off, n + 1, s =>
    let t := s.writeReg page off (BitVec.ofNat 32 (leAt bs 0 4)) origin
    if t.trust.fuses.lc != s.trust.fuses.lc then t else State.writeWords page origin (bs.drop 4) (off + 4) n t

def State.regRead (s : State) (cmd : W64) (p : Bytes) : State :=
  let a := leAt p 8 8
  let n := leAt p 16 4
  if p.length != 20 || n == 0 || decide (64 < n) then s.finishCmd cmd 0x0508 []
  else
    match s.accessError a n with
    | some c => s.finishCmd cmd c []
    | none =>
      let (s, bs) := State.readWords ((a - registerBase) / 4096) n (a % 4096) s
      s.finishCmd cmd 0 bs

/-- REG_WRITE; after a life-cycle change the RESULT leaves before the sessions close and the module resets (R617). -/
def State.regWrite (s : State) (cmd : W64) (p : Bytes) : State :=
  let a := leAt p 8 8
  let n := leAt p 16 4
  if p.length != 20 + 4 * n || n == 0 || decide (64 < n) then s.finishCmd cmd 0x0508 []
  else
    match s.accessError a n with
    | some c => s.finishCmd cmd c []
    | none =>
      let t := State.writeWords ((a - registerBase) / 4096) cmd (p.drop 20) (a % 4096) n s
      let u := t.finishCmd cmd 0 []
      if t.trust.fuses.lc != s.trust.fuses.lc then u.lifeReset else u

/-- SUBSCRIBE (R500), for the session that the command came on. -/
def State.subscribe (s : State) (i : Option Nat) (cmd : W64) (p : Bytes) : State :=
  let page := leAt p 8 4
  if p.length != 16 || decide (pageCount ≤ page) then s.finishCmd cmd 0x0508 []
  else
    let s := match i with
      | some i =>
        let x := s.session i
        s.setSession i { x with subs := x.subs.set 0 page (BitVec.ofNat 32 (leAt p 12 4)) }
      | none => s
    s.finishCmd cmd 0 []

/-! ### Jobs and long operations (R2, R503, R604, R654, R656, R692) -/

/-- JOB_LOAD: the operation that received the bundle is named, and the bundle stands with the command. -/
def State.jobLoadCmd (s : State) (cmd : W64) (p : Bytes) : State :=
  let op : W64 := BitVec.ofNat 64 (leAt p 8 8)
  let done := match s.findOp op with | some o => o.obj == BulkObj.jobBundle && o.state == .done | none => false
  let b := s.job.bundles.find? fun b => b.cmd == cmd
  let s := { s with job := { s.job with bundles := s.job.bundles.filter fun b => b.cmd != cmd } }
  if p.length != 16 then s.finishCmd cmd 0x0508 []
  else
    -- a load that is barred is refused whatever it names (R3)
    match s.loadBarred, done, b with
    | some e, _, _ => s.finishCmd cmd e []
    | none, true, some b => s.loadJob b.job cmd
    | none, _, _ => s.finishCmd cmd 0x050B []

def BulkObj.ofCode (n : Nat) : Option BulkObj :=
  if n == 1 then some .snapshot else if n == 2 then some .image else if n == 3 then some .jobBundle else if n == 4 then some .restore
  else if n == 5 then some .dump else if n == 6 then some .trace else none

def BulkObj.sends (o : BulkObj) : Bool := o == .snapshot || o == .dump || o == .trace

/-- The operation that a BULK_CREATE describes. -/
def State.newOp (s : State) (obj : BulkObj) (p : Bytes) : BulkOp :=
  { id := BitVec.ofNat 64 (s.mrn.bootCount * 2 ^ 32 + s.mrn.nextOp % 2 ^ 32), sends := obj.sends, obj := obj,
    plane := if s.twoPlanes then leAt p 10 1 else 0, peer := BitVec.ofNat 128 (beNat (part p 11 16)), peerPort := leAt p 27 2,
    length := if obj.sends then 0 else leAt p 29 8, target := if obj == .restore then leAt p 37 8 else 0, state := .created,
    session := none, data := [], got := [], journal := 0, journalSent := 0, sent := 0, ended := none, err := 0, rank := s.ownRank,
    pos := 0, headChecked := false, stream := [], top := 0, window := [] }

/-- The operation is entered, and its id is the command's result. -/
def State.createOp (s : State) (cmd : W64) (o : BulkOp) : State :=
  State.finishCmd { s with mrn := { s.mrn with ops := s.mrn.ops ++ [o], nextOp := (s.mrn.nextOp + 1) % 2 ^ 32 } } cmd 0 (leBytes 8 o.id.toNat)

/-- An operation whose bytes are all ready: it is created and its session opens. -/
def State.createReady (s : State) (cmd : W64) (o : BulkOp) (bs : Bytes) : State :=
  (s.createOp cmd { o with length := bs.length, stream := bs }).openOp o.id

/-- BULK_CREATE of the object DUMP (R656). -/
def State.createDump (s : State) (cmd : W64) (o : BulkOp) : State :=
  if s.trace.held.isNone && s.jobLoaded then s.finishCmd cmd 0x0905 []
  else
    let s := if s.trace.held.isNone then s.takeDump false else s
    match s.trace.held with
    | some (id, len) => s.createReady cmd { o with target := id } (s.loadNew s.trace.dumpBase len)
    | none => s.finishCmd cmd 0x0905 []

/-- BULK_CREATE of the object TRACE (R654). -/
def State.createTrace (s : State) (cmd : W64) (o : BulkOp) : State :=
  if !s.isX then s.finishCmd cmd 0x0105 []
  else
    let s := s.freezeXt
    let bad := s.uncorr s.trace.xtBase (16 * slotsOf s.trace.xt.recs)
    let s := s.createReady cmd o s.traceStream
    if bad then s.endOp o.id 0x0308 true else s

/-- BULK_CREATE (R503). -/
def State.bulkCreate (s : State) (cmd : W64) (p : Bytes) : State :=
  match BulkObj.ofCode (leAt p 9 1) with
  | none => s.finishCmd cmd 0x0508 []
  | some obj =>
    let need := if obj.sends then 29 else if obj == .restore then 45 else 37
    if p.length < need || leAt p 8 1 != (if obj.sends then 0 else 1) || decide (1 < leAt p 10 1) then s.finishCmd cmd 0x0508 []
    else
      let o := s.newOp obj p
      match obj with
      | .image =>
        if s.trust.tamper != 0 then s.finishCmd cmd 0x0702 []
        else if s.jobLoaded then s.finishCmd cmd 0x0709 []
        else s.createOp cmd o
      | .dump => s.createDump cmd o
      | .trace => s.createTrace cmd o
      | _ => s.createOp cmd o

/-- BULK_CANCEL (R509). -/
def State.bulkCancel (s : State) (cmd : W64) (p : Bytes) : State :=
  let id : W64 := BitVec.ofNat 64 (leAt p 8 8)
  if p.length != 16 then s.finishCmd cmd 0x0508 []
  else if (s.findOp id).isNone then s.finishCmd cmd 0x050B []
  else (s.endOp id Config.cancelCode true).finishCmd cmd 0 []

def State.dumpCmd (s : State) (cmd : W64) (p : Bytes) : State :=
  if p.length != 12 then s.finishCmd cmd 0x0508 []
  else
    let (s, st, data) := s.commandDump (leAt p 8 4)
    s.finishCmd cmd st data

/-- ATTEST (R609, R610). -/
def State.attest (s : State) (c : WaitingCmd) : State :=
  if c.payload.length != 40 then s.finishCmd c.cmd 0x0508 []
  else if s.trust.fuses.lc == 0 then s.finishCmd c.cmd 0x0705 []
  else if s.jobBusy then { s with job := { s.job with attests := s.job.attests ++ [c] } }
  else s.finishCmd c.cmd 0 (s.report (part c.payload 8 32))

/-! ### The envelope (R494) -/

/-- A job that MC_JOB can name is loaded. -/
def State.namesJob (s : State) (serial : Nat) : Bool :=
  s.job.state != .none && s.job.state != .loading && s.job.serial % 2 ^ 32 == serial

/-- The refusal of R494, if any. -/
def State.envelopeError (s : State) (typ : Nat) (p : Bytes) : Option W16 :=
  let boot := leAt p 0 4
  let job := leAt p 4 4
  let needsBoot := !(typ == 0x0100 || typ == 0x0101 || typ == 0x0109)
  let needsJob := typ == 0x0105 || typ == 0x0108 || (typ == 0x0106 && leAt p 9 1 == 1)
  if p.length < 8 || (needsBoot && boot == 0) || (needsJob && job == 0) then some 0x0508
  else if boot != 0 && boot != s.mrn.bootCount then some 0x0506
  else if job != 0 && !(s.namesJob job) then some 0x0112
  else none

/-- A command that starts. -/
def State.runCmd (s : State) (c : WaitingCmd) (i : Option Nat) : State :=
  match s.envelopeError c.typ c.payload with
  | some e => s.finishCmd c.cmd e []
  | none =>
    let t := c.typ
    let p := c.payload
    if t == 0x0100 then s.finishCmd c.cmd 0 s.identifyData
    else if t == 0x0101 then s.regRead c.cmd p
    else if t == 0x0102 then s.regWrite c.cmd p
    else if t == 0x0103 then s.subscribe i c.cmd p
    else if t == 0x0104 then s.jobLoadCmd c.cmd p
    else if t == 0x0105 then s.unloadJob c.cmd
    else if t == 0x0106 then s.bulkCreate c.cmd p
    else if t == 0x0107 then s.bulkCancel c.cmd p
    else if t == 0x0108 then s.dumpCmd c.cmd p
    else s.attest c

/-! ### The command cache (R495–R498) -/

def cacheSize : Nat := 4096

def cmdOrigin (cmd : W64) : Nat := cmd.toNat / 2 ^ 40
def cmdSerial (cmd : W64) : Nat := cmd.toNat % 2 ^ 40

/-- The serial at or below the origin's floor: a known origin holds one more than its floor, or 0 while it has none. -/
def State.expired (s : State) (cmd : W64) : Bool := decide (cmdSerial cmd < s.mrn.origins.get 0 (cmdOrigin cmd))

/-- Room for one entry: the one that completed earliest goes, and its origin's floor rises to its serial. -/
def State.cacheRoom (s : State) : State :=
  if s.mrn.cache.length < cacheSize then s else
  match s.mrn.cache.find? fun e => !e.running with
  | none => s
  | some e =>
    let o := cmdOrigin e.cmd
    { s with mrn := { s.mrn with cache := s.mrn.cache.filter (fun f => f.cmd != e.cmd),
                                 origins := s.mrn.origins.put o (max (s.mrn.origins.get 0 o) (cmdSerial e.cmd + 1)) } }

/-- Every entry is RUNNING. -/
def State.cacheBusy (s : State) : Bool := decide (cacheSize ≤ s.mrn.cache.length) && s.mrn.cache.all fun e => e.running

def cmdDigest (typ : Nat) (p : Bytes) : Bytes := shake256 (beBytes 2 typ ++ p) 16

def State.sessionById (s : State) (id : Nat) : Option Nat :=
  (s.mrn.sessions.find? fun kv => kv.2.id == id && kv.2.kind == 0 && kv.2.carries).map (·.1)

/-- The RESULT of a command is owed to a session that still stands. -/
def State.oweTo (s : State) (i : Option Nat) (cmd : W64) (res : Option (W16 × Bytes)) : State :=
  match i with | some i => s.owe i cmd res | none => s

/-- A command that is not cached: executed, or refused as expired, and cached either way. -/
def State.startCmd (s : State) (c : WaitingCmd) : State :=
  let i := s.sessionById c.session
  let old := s.expired c.cmd
  let s := s.cacheRoom
  let s := { s with mrn := { s.mrn with cache := s.mrn.cache ++ [(⟨c.cmd, cmdDigest c.typ c.payload, true, 0, []⟩ : CacheEntry)] } }
  let s := s.oweTo i c.cmd none
  if old then (s.finishCmd c.cmd 0x0505 []).count (pgMRN 0) 12 1 else s.runCmd c i

/-- The origin is known, or becomes known: at most 64 (R495). -/
def State.knowOrigin (s : State) (o : Nat) : Option State :=
  if (s.mrn.origins.find o).isSome then some s
  else if 64 ≤ s.mrn.origins.length then none
  else some { s with mrn := { s.mrn with origins := s.mrn.origins.put o 0 } }

/-- A command by its id and content (R497). -/
def State.admitCmd (s : State) (c : WaitingCmd) : State :=
  let i := s.sessionById c.session
  match s.mrn.cache.find? fun e => e.cmd == c.cmd with
  | some e =>
    if e.digest != cmdDigest c.typ c.payload then
      ((s.count (pgMRN 0) 11 1).raise (pgMRN 0) 2 (c.cmd.toNat % 2 ^ 32)).oweTo i c.cmd (some (0x0504, []))
    else
      let s := s.count (pgMRN 0) 10 1
      (if e.running then
        (match i with | some k => (s.sendResult k c.cmd stPending []).owe k c.cmd none | none => s)
       else s.oweTo i c.cmd (some (e.status, e.result)))
  | none =>
    match s.knowOrigin (cmdOrigin c.cmd) with
    | none => s.oweTo i c.cmd (some (0x0509, []))
    | some s => s.startCmd c

/-- The command needs a place in the cache, and every entry is RUNNING (R496). -/
def State.mustWait (s : State) (c : WaitingCmd) : Bool := !(s.mrn.cache.any fun e => e.cmd == c.cmd) && s.cacheBusy

/-- Commands that waited for a place in the cache; `fuel` bounds their number. -/
def State.drainAdmission : Nat → State → State
  | 0, s => s
  | fuel + 1, s =>
    match s.mrn.admission with
    | [] => s
    | c :: rest =>
      if s.mustWait c then s else State.drainAdmission fuel (State.admitCmd { s with mrn := { s.mrn with admission := rest } } c)

/-- What a completed command lets go on. -/
def State.afterCmd (s : State) : State :=
  let s := s.runAttests
  State.drainAdmission s.mrn.admission.length s

/-- A delivered command: one that is not cached waits behind those that wait for a place in the cache, and any behind one of its own session
that waits, since RESULTs leave in order (R496, R498); every other one is handled at once. -/
def State.command (s : State) (i : Nat) (m : Msg) : State :=
  let c : WaitingCmd := ⟨(s.session i).id, m.cmd, m.typ, m.payload⟩
  let cached := s.mrn.cache.any fun e => e.cmd == c.cmd
  if s.mustWait c || (!cached && !s.mrn.admission.isEmpty) || s.mrn.admission.any (fun a => a.session == c.session) then
    { s with mrn := { s.mrn with admission := s.mrn.admission ++ [c] } }
  else (s.admitCmd c).afterCmd

/-! ### Delivery (R493) -/

/-- A message goes to its user. RESULT and EVENT, which only the module sends, have none here. Roster, failure and takeover notices come from the manager; heartbeats and statuses go to it. -/
def State.deliverMsg (s : State) (i : Nat) (m : Msg) : State :=
  let x := s.session i
  let p := m.payload
  let t := m.typ
  if 0x0100 ≤ t ∧ t ≤ 0x0109 then s.command i m
  else if t == 0x0200 then (if x.opener then s.rosterMsg p else s)
  else if t == 0x0201 then (if x.opener then s else s.takeHeartbeat p)
  else if t == 0x0202 then (if x.opener then s.failedMsg p else s)
  else if t == 0x0203 then (if x.opener then s.takeTakeover p else s)
  else if t == 0x0204 then (if x.opener then s else s.takeStatus x p)
  else if t == 0x0300 then s.takeChunk i p
  else if t == 0x0301 then s.takeJournal i p
  else if t == 0x0302 then s.takeEnd i p
  else if t == 0x0303 then s.takeBulkAbort i p
  else if t == 0x0400 then s.takeSeg i p
  else if t == 0x0401 then s.takeResend i p
  else if t == 0x0402 then s.takeGrant i p
  else if t == 0x0403 then s.takeRetry i p
  else if t == 0x0404 then s.takeGatherReq i p
  else if t == 0x0405 then s.takeGone i p
  else if t == 0x0406 then s.takeAbort i p
  else if t == 0x0407 then s.takeCount i p
  else s

/-- A packet of a type arrives. -/
def State.rx (s : State) (p : Packet) (typ : Nat) : State := s.receive State.deliverMsg p typ

/-- ETH_FRAME_RX (R436, R437, R441, R443, R493). An accepted frame's packet is a command of its own, unless its type has no row. -/
def execEthFrameRx (fr : Frame) (s : State) : Host.Outcome State Fault Refusal :=
  .next (
    if !(s.portHears fr.port) then s else
    match s.takeFrame fr with
    | (s, .accepted) => (match fr.foreign with
      | some (p, typ) => s.rx { p with port := fr.port } typ
      | none => s)
    | (s, _) => s)

/-! ### The rows: sessions -/

/-- HELLO (R483–R487, R503, R606, R607). -/
def execHello (p : Packet) (s : State) : Host.Outcome State Fault Refusal := .next (s.rx p 0x0001)

/-- PROVE (R485–R487). -/
def execProve (p : Packet) (s : State) : Host.Outcome State Fault Refusal := .next (s.rx p 0x0003)

/-- OPEN_OK (R483). -/
def execOpenOk (p : Packet) (s : State) : Host.Outcome State Fault Refusal := .next (s.rx p 0x0004)

/-- OPEN_REFUSED (R488). -/
def execOpenRefused (p : Packet) (s : State) : Host.Outcome State Fault Refusal := .next (s.rx p 0x0005)

/-- ACK (R476–R481). -/
def execAck (p : Packet) (s : State) : Host.Outcome State Fault Refusal := .next (s.rx p 0x0006)

/-- PROBE (R490). -/
def execProbe (p : Packet) (s : State) : Host.Outcome State Fault Refusal := .next (s.rx p 0x0007)

/-- RESYNC (R488, E11). -/
def execResync (p : Packet) (s : State) : Host.Outcome State Fault Refusal := .next (s.rx p 0x0008)

/-- RESYNC_ACK (R488, E12). -/
def execResyncAck (p : Packet) (s : State) : Host.Outcome State Fault Refusal := .next (s.rx p 0x0009)

/-- CLOSE (R488, E16). -/
def execClose (p : Packet) (s : State) : Host.Outcome State Fault Refusal := .next (s.rx p 0x000A)

/-- CLOSE_ACK (R488, E17). -/
def execCloseAck (p : Packet) (s : State) : Host.Outcome State Fault Refusal := .next (s.rx p 0x000B)

/-! ### The rows: commands -/

/-- IDENTIFY (R493). A SCRAPPED module proves no session, and answers IDENTIFY over the management port alone (R616). -/
def execIdentify (p : Packet) (s : State) : Host.Outcome State Fault Refusal :=
  .next (s.receiveWith State.deliverMsg (fun s =>
    if s.trust.fuses.lc == 4 && p.port == 8 then
      s.sendRaw 2 0 p.src (Config.strayId p.session) p.epoch 0x0110 p.cmd (zeros 4 ++ s.identifyData)
    else s.answerStray p) p 0x0100)

/-- REG_READ (R499). -/
def execRegRead (p : Packet) (s : State) : Host.Outcome State Fault Refusal := .next (s.rx p 0x0101)

/-- REG_WRITE (R499). -/
def execRegWrite (p : Packet) (s : State) : Host.Outcome State Fault Refusal := .next (s.rx p 0x0102)

/-- SUBSCRIBE (R500). -/
def execSubscribe (p : Packet) (s : State) : Host.Outcome State Fault Refusal := .next (s.rx p 0x0103)

/-- A bundle stands with its command until the command has run: while the message waits in a session or at admission. -/
def State.bundleWanted (s : State) (cmd : W64) : Bool :=
  s.mrn.admission.any (fun c => c.cmd == cmd)
    || s.mrn.sessions.any fun kv => kv.2.ready.any (fun m => m.cmd == cmd) || kv.2.held.any fun h => h.2.cmd == cmd

/-- JOB_LOAD (R692), with the bundle that the named operation received. -/
def execJobLoad (p : Packet) (b : JobBundle) (s : State) : Host.Outcome State Fault Refusal :=
  .next (
    let other := s.job.bundles.filter fun e => e.cmd != p.cmd
    let s := State.rx { s with job := { s.job with bundles := other ++ [⟨p.cmd, b⟩] } } p 0x0104
    if s.bundleWanted p.cmd then s
    else { s with job := { s.job with bundles := s.job.bundles.filter fun e => e.cmd != p.cmd } })

/-- JOB_UNLOAD (R493). -/
def execJobUnload (p : Packet) (s : State) : Host.Outcome State Fault Refusal := .next (s.rx p 0x0105)

/-- A BULK_CREATE whose object has a code (R503). -/
def State.rxCreate (s : State) (p : Packet) (o : BulkObj) : State := if leAt p.payload 9 1 == o.code then s.rx p 0x0106 else s

/-- BULK_CREATE_SNAPSHOT (R503). -/
def execBulkCreateSnapshot (p : Packet) (s : State) : Host.Outcome State Fault Refusal := .next (s.rxCreate p .snapshot)

/-- BULK_CREATE_IMAGE (R503, R604, R619). -/
def execBulkCreateImage (p : Packet) (s : State) : Host.Outcome State Fault Refusal := .next (s.rxCreate p .image)

/-- BULK_CREATE_JOB_BUNDLE (R503). -/
def execBulkCreateJobBundle (p : Packet) (s : State) : Host.Outcome State Fault Refusal := .next (s.rxCreate p .jobBundle)

/-- BULK_CREATE_RESTORE (R503, R568). -/
def execBulkCreateRestore (p : Packet) (s : State) : Host.Outcome State Fault Refusal := .next (s.rxCreate p .restore)

/-- BULK_CREATE_DUMP (R503, R656). -/
def execBulkCreateDump (p : Packet) (s : State) : Host.Outcome State Fault Refusal := .next (s.rxCreate p .dump)

/-- BULK_CREATE_TRACE (R503, R654). -/
def execBulkCreateTrace (p : Packet) (s : State) : Host.Outcome State Fault Refusal := .next (s.rxCreate p .trace)

/-- BULK_CANCEL (R509). -/
def execBulkCancel (p : Packet) (s : State) : Host.Outcome State Fault Refusal := .next (s.rx p 0x0107)

/-- DUMP (R655). -/
def execDump (p : Packet) (s : State) : Host.Outcome State Fault Refusal := .next (s.rx p 0x0108)

/-- ATTEST (R609, R610). -/
def execAttest (p : Packet) (s : State) : Host.Outcome State Fault Refusal := .next (s.rx p 0x0109)

/-! ### The rows: membership -/

/-- ROSTER (R546). -/
def execRoster (p : Packet) (s : State) : Host.Outcome State Fault Refusal := .next (s.rx p 0x0200)

/-- HEARTBEAT (R545). -/
def execHeartbeat (p : Packet) (s : State) : Host.Outcome State Fault Refusal := .next (s.rx p 0x0201)

/-- FAILED (R549). -/
def execFailed (p : Packet) (s : State) : Host.Outcome State Fault Refusal := .next (s.rx p 0x0202)

/-- TAKEOVER (R550). -/
def execTakeover (p : Packet) (s : State) : Host.Outcome State Fault Refusal := .next (s.rx p 0x0203)

/-- STATUS (R545). -/
def execStatus (p : Packet) (s : State) : Host.Outcome State Fault Refusal := .next (s.rx p 0x0204)

/-! ### The rows: long operations -/

/-- BULK_DATA (R504). -/
def execBulkData (p : Packet) (s : State) : Host.Outcome State Fault Refusal := .next (s.rx p 0x0300)

/-- BULK_JOURNAL (R508). -/
def execBulkJournal (p : Packet) (s : State) : Host.Outcome State Fault Refusal := .next (s.rx p 0x0301)

/-- BULK_END (R509). -/
def execBulkEnd (p : Packet) (s : State) : Host.Outcome State Fault Refusal := .next (s.rx p 0x0302)

/-- BULK_ABORT (R509). -/
def execBulkAbort (p : Packet) (s : State) : Host.Outcome State Fault Refusal := .next (s.rx p 0x0303)

/-! ### The rows: collectives -/

/-- TILE_SEG (R501, R502). -/
def execTileSeg (p : Packet) (s : State) : Host.Outcome State Fault Refusal := .next (s.rx p 0x0400)

/-- TILE_RESEND (R455). -/
def execTileResend (p : Packet) (s : State) : Host.Outcome State Fault Refusal := .next (s.rx p 0x0401)

/-- GRANT (R462). -/
def execGrant (p : Packet) (s : State) : Host.Outcome State Fault Refusal := .next (s.rx p 0x0402)

/-- CONTRIB_RETRY (R459). -/
def execContribRetry (p : Packet) (s : State) : Host.Outcome State Fault Refusal := .next (s.rx p 0x0403)

/-- GATHER_REQ (R415). -/
def execGatherReq (g : GatherMsg) (s : State) : Host.Outcome State Fault Refusal :=
  match g with
  | .received p => .next (s.rx p 0x0404)
  | .issued g => .next (s.issueGather g)

/-- VERSION_GONE (R415). -/
def execVersionGone (p : Packet) (s : State) : Host.Outcome State Fault Refusal := .next (s.rx p 0x0405)

/-- ABORT (R456, R512). -/
def execAbort (p : Packet) (s : State) : Host.Outcome State Fault Refusal := .next (s.rx p 0x0406)

/-- COUNT (R451). -/
def execCount (p : Packet) (s : State) : Host.Outcome State Fault Refusal := .next (s.rx p 0x0407)

/-! ### The end of a clear (R375, R376) -/

/-- STRATUM_CLEAR_DONE. -/
def execStratumClearDone (die : Nat) (s : State) : Host.Outcome State Fault Refusal := .next (s.stratumCleared die).afterCmd

/-- LPD_CLEAR_DONE. -/
def execLpdClearDone (q : Nat) (s : State) : Host.Outcome State Fault Refusal := .next (s.lpdCleared q).afterCmd

end Sys2Proof.Machine
end

