-- ==== Sys2Proof/Machine/Random.lean ====
section
/-!
DEFINITION. Draws in the spindle, keep-masks, marks and bank ownership (R223, R224, R251–R256, R310–R315).
-/
namespace Sys2Proof.Machine

/-! ### RNG.U and RNG.N (R252, R254, R256) -/

/-- The output words of lane `l`. -/
def laneDraw (key : SlotKey) (sp ss : W64) (purpose l : Nat) : Ctr :=
  mix (counterBlock ((sp.toNat + l) % 2 ^ 64) (field ss.toNat 0 32) purpose (field ss.toNat 32 24)) key

/-- A draw that needs the tensor in the table and the slot filled, tested in that order. -/
def State.laneKey (s : State) (n : Nat) (ss : W64) (slot : Nat) : Except W16 SlotKey :=
  match s.tensorWidth (s.spindle n).station (field ss.toNat 0 32) with
  | none => .error 0x010D
  | some _ => s.seedKey slot

def opRngU (n : Nat) (d a b : Reg) (slot : Nat) (s : State) : State :=
  let x := s.spindle n
  let ss := x.s b
  let purpose := field ss.toNat 56 8
  if purpose == 0 || decide (5 < purpose) then s.stopSp n 0x020E else
  s.orStop n (s.laneKey n ss slot) fun key =>
  (s.setSpindle n (x.setV d ((List.range 32).map fun l => (laneDraw key (x.s a) ss purpose l).c0))).retire n

def opRngN (n : Nat) (d a b : Reg) (slot : Nat) (s : State) : State :=
  let x := s.spindle n
  let ss := x.s b
  s.orStop n (s.laneKey n ss slot) fun key =>
  (s.setSpindle n (x.setV d ((List.range 32).map fun l =>
    let o := laneDraw key (x.s a) ss 5 l
    normalVariate o.c0 o.c1))).retire n

/-! ### RNG.MASK (R223, R224, R251, R306, R310) -/

/-- The mask descriptor (R310). -/
structure MaskDesc where
  tensor : Nat
  row : Nat
  col : Nat
  gen : Nat
  thresh : Nat
  slot : Nat
  reserved : Nat
  width : Nat
  dest : Nat

def MaskDesc.parse (b : Bytes) : MaskDesc :=
  ⟨leAt b 0 4, leAt b 4 3, leAt b 7 3, leAt b 10 2, leAt b 12 2, leAt b 14 1, leAt b 15 1, leAt b 16 8, leAt b 24 8⟩

/-- The whole mask lies in the local memories of the skein's spindles. -/
def destInSkein (k dest : Nat) : Bool := decide (localBase (64 * k) ≤ dest) && decide (dest + 512 ≤ localBase (64 * k + 64))

/-- RNG.MASK: the draw's slot and tensor, then the conditions of R310; a full queue of 64 stalls it (R224). -/
def opRngMask (n : Nat) (a : Reg) (s : State) : State :=
  let x := s.spindle n
  let k := skeinOf n
  s.orStop n (localAddr (x.s a) 0 64) fun at_ =>
  let m := MaskDesc.parse (s.localRead n at_ 32)
  s.orStop n (s.seedKey m.slot) fun key =>
  match s.tensorWidth x.station m.tensor with
  | none => s.stopSp n 0x010D
  | some w =>
    if m.width != w || !s.genHeld m.gen || !(destInSkein k m.dest) || m.dest % 64 != 0 || m.reserved != 0 then
      s.stopSp n 0x0210
    else if 64 ≤ (s.skein k).masks.length then s.await n .waitTransfer .unit
    else s.takeQuota n fun s =>
      let r : MaskReq := { spindle := n, key := key, width := w, tensor := m.tensor, row := m.row, col := m.col,
                           serial := s.serialOf m.gen, thresh := m.thresh, dest := m.dest }
      let s := s.setSkein k { s.skein k with masks := (s.skein k).masks ++ [r] }
      s.setSpindle n { s.spindle n with run := .waitTransfer, wait := .none, own := some ⟨none, 0, true, none⟩ }

/-- The first spindle whose bank refuses the ply unit's write for spindle `n` (R313, R694). -/
def State.maskRefused (s : State) (n dest : Nat) : Option Nat :=
  ((localParts dest 512).find? fun (m, off, k) =>
    let y := s.spindle m
    !(if m == n then y.ownWrite .ply off k else y.foreignWrite .ply off k)).map (·.1)

/-- MASK_COMPLETE (R224, R227): the skein's oldest mask is written and counted, and its RNG.MASK retires. -/
def execMaskComplete (k : Nat) (s : State) : Host.Outcome State Fault Refusal :=
  .next (if !s.jobLive || s.paused then s else
    match (s.skein k).masks with
    | [] => s
    | r :: rest =>
      let s := s.setSkein k { s.skein k with masks := rest }
      let n := r.spindle
      match s.maskRefused n r.dest with
      | some m => if m == n then s.stopSp n 0x0304 else s.refuseForeign n m
      | none =>
        let s := s.devicePut r.dest (maskImage r.key r.width r.tensor r.row r.col r.serial r.thresh) (some n)
        let x := s.spindle n
        (((s.count (pgPLY k) 0x134 1).setSpindle n { x with own := none }).freeQuota k x.station).retire n)

/-! ### Marks (R311, R642, R647) -/

/-- The record of EVT.MARK or EVT.TRIG: the program's code with MARK set. -/
def State.markRecord (s : State) (n : Nat) (a : Reg) (code : BitVec 16) (flags : Nat) : State :=
  s.record (pgSPD n) code.toNat (0x20 + flags) ((s.spindle n).s a).toNat none

def opEvtMark (n : Nat) (a : Reg) (code : BitVec 16) (s : State) : State := (s.markRecord n a code 0).retire n

/-- EVT.TRIG: the trigger of source 0, the record, and the TRIG event (R322). -/
def opEvtTrig (n : Nat) (a : Reg) (code : BitVec 16) (s : State) : State :=
  let (s, cap) := s.trigger 0
  let s := s.markRecord n a code (trgFlag cap)
  (s.raise (pgSPD n) 1 ((s.spindle n).s a).toNat).retire n

/-! ### Bank ownership (R315, R350) -/

/-- The bank holds the deferral ring of the station (R171). -/
def State.isDeferBank (s : State) (n b : Nat) : Bool :=
  match s.imageOf n with
  | some img => img.deferEntry.isSome && img.deferBank == b
  | none => false

def opBankGive (n b : Nat) (owner : Owner) (s : State) : State :=
  let x := s.spindle n
  if (x.bank b).owner != .core || s.isDeferBank n b then s.stopSp n 0x0304
  else (s.setSpindle n (x.setBank b ⟨owner, false, false⟩)).retire n

/-- BANK.TAKE waits for the prologue copies that target the bank at its issue, which count as in flight from their trigger on (R315, R350). -/
def opBankTake (n b : Nat) (s : State) : State :=
  let x := s.spindle n
  let now := s.copyStations n b
  let awaited := match x.wait with | .take l => l.filter now.contains | _ => now
  if (x.bank b).owner == .core then s.retire n
  else if !awaited.isEmpty then
    (s.setSpindle n (x.setBank b { x.bank b with pending := true })).await n .waitTransfer (.take awaited)
  else (s.setSpindle n (x.setBank b Bank.core)).retire n

def opBankShare (n b : Nat) (v : Bool) (s : State) : State :=
  let x := s.spindle n
  if (x.bank b).owner != .core then s.stopSp n 0x0304
  else (s.setSpindle n (x.setBank b ⟨.core, v, false⟩)).retire n

/-! ### The rows -/

/-- RNG.U (R252). -/
def execRngU (n : Nat) (s : State) : Host.Outcome State Fault Refusal :=
  .next (s.issue n fun i => match i with
    | .rngU d a b slot => some (opRngU n d a b slot.toNat)
    | _ => none)

/-- RNG.N (R256). -/
def execRngN (n : Nat) (s : State) : Host.Outcome State Fault Refusal :=
  .next (s.issue n fun i => match i with
    | .rngN d a b slot => some (opRngN n d a b slot.toNat)
    | _ => none)

/-- RNG.MASK (R223, R310). -/
def execRngMask (n : Nat) (s : State) : Host.Outcome State Fault Refusal :=
  .next (s.issue n fun i => match i with
    | .rngMask a => some (opRngMask n a)
    | _ => none)

/-- EVT.MARK (R311). -/
def execEvtMark (n : Nat) (s : State) : Host.Outcome State Fault Refusal :=
  .next (s.issue n fun i => match i with
    | .evtMark a code => some (opEvtMark n a code)
    | _ => none)

/-- EVT.TRIG (R311). -/
def execEvtTrig (n : Nat) (s : State) : Host.Outcome State Fault Refusal :=
  .next (s.issue n fun i => match i with
    | .evtTrig a code => some (opEvtTrig n a code)
    | _ => none)

/-- BANK.GIVE (R315). -/
def execBankGive (n : Nat) (s : State) : Host.Outcome State Fault Refusal :=
  .next (s.issue n fun i => match i with
    | .bankGive bank owner => some (opBankGive n bank.toNat (Owner.ofCode owner.toNat))
    | _ => none)

/-- BANK.TAKE (R315). -/
def execBankTake (n : Nat) (s : State) : Host.Outcome State Fault Refusal :=
  .next (s.issue n fun i => match i with
    | .bankTake bank => some (opBankTake n bank.toNat)
    | _ => none)

/-- BANK.SHARE (R315). -/
def execBankShare (n : Nat) (s : State) : Host.Outcome State Fault Refusal :=
  .next (s.issue n fun i => match i with
    | .bankShare bank v => some (opBankShare n bank.toNat v)
    | _ => none)

end Sys2Proof.Machine
end

