-- ==== Sys2Proof/Machine/Resume.lean ====
section
/-!
DEFINITION. The commands with which a resume may end (R587, R592, R597), and what the paused protocol engines then go on with.
-/
namespace Sys2Proof.Machine

/-- BULK and PEER sessions go on where the pause held them: what was acknowledged reaches its user, and what was queued leaves (R586,
R592). -/
def State.carrySession (s : State) (i : Nat) : State :=
  let x := s.session i
  if x.kind < 2 then s else (State.deliverReady State.deliverMsg i x.id x.ready.length s).settle i

/-- The paused protocol engines go on (R592). -/
def State.carryOn (s : State) : State :=
  let s := (s.mrn.sessions.map (·.1)).foldl State.carrySession s
  (s.job.unsent.map (·.rank)).eraseDups.foldl State.flushPeer s

/-- A command after which the pause may be over: if it is, the protocol engines go on (R592). -/
def State.endPause (before after : State) : State := if before.paused && !after.paused then after.carryOn else after

/-- SAG_GATHER_DONE (R587, R589, R592). -/
def execSagGatherDone (s : State) : Host.Outcome State Fault Refusal := .next (s.endPause s.sagGathered)

/-- SAG_SAVE_DONE (R587, R592). -/
def execSagSaveDone (us : Nat) (s : State) : Host.Outcome State Fault Refusal := .next (s.endPause (s.sagSaved us))

/-- SAG_RECOVERY (R592). -/
def execSagRecovery (s : State) : Host.Outcome State Fault Refusal := .next (s.endPause s.sagRecovers)

/-- SKEIN_READY (R351, R352, R592). -/
def execSkeinReady (k : Nat) (s : State) : Host.Outcome State Fault Refusal := .next (s.endPause (s.skeinReady k))

end Sys2Proof.Machine
end

