-- ==== Sys2Proof/Machine/Vector.lean ====
section
/-!
DEFINITION. The vector, mask and curve instructions (R293–R298, R253–R270): 32 lanes, with optional predication.
-/
namespace Sys2Proof.Machine

/-- The lanes that an instruction writes: all of them, or those whose bit of m[PRED_M] is set (R293). -/
def Spindle.lanes (x : Spindle) (p : Pred) : W32 := if p.en then x.m p.m else 0xFFFFFFFF

/-- Lane results put over the destination where the lane is written. -/
def mergeLanes (on : W32) (old new : List W32) : List W32 :=
  (List.range 32).map fun l => if on.getLsbD l then new.getD l 0 else old.getD l 0

/-- Mask results put over the destination bits where the lane is written. -/
def mergeMask (on old new : W32) : W32 := (new &&& on) ||| (old &&& ~~~on)

/-- The mask register with bit `l` = `f l`. -/
def maskOf (f : Nat → Bool) : W32 := BitVec.ofNat 32 ((List.range 32).foldl (fun n l => n + b2n (f l) * 2 ^ l) 0)

/-- A vector register written under predication; the instruction retires. -/
def State.retireV (s : State) (n : Nat) (d : Reg) (p : Pred) (new : List W32) : State :=
  let x := s.spindle n
  (s.setSpindle n (x.setV d (mergeLanes (x.lanes p) (x.v d) new))).retire n

/-- A mask register written under predication; the instruction retires. -/
def State.retireM (s : State) (n : Nat) (d : MReg) (p : Pred) (new : W32) : State :=
  let x := s.spindle n
  (s.setSpindle n (x.setM d (mergeMask (x.lanes p) (x.m d) new))).retire n

/-- One lane of a vector F32 operation (R293–R295). A quotient or root that binary32 does not hold is either neighbour. -/
def vfLane (op : VfOp) (a b c : W32) : W32 :=
  match op with
  | .add => f32Add a b
  | .sub => f32Sub a b
  | .mul => f32Mul a b
  | .fma => f32Fma a b c
  | .div => let q := f32DivPair a b; if Config.divUpper a b then q.2 else q.1
  | .sqrt => let q := f32SqrtPair a; if Config.sqrtUpper a then q.2 else q.1
  | .min => f32Min a b
  | .max => f32Max a b
  | .abs => a &&& 0x7FFFFFFF
  | .neg => f32Flip a
  | _ => a

/-- One lane of a vector F32 comparison. -/
def vfTest (op : VfOp) (a b : W32) : Bool :=
  match op with
  | .cmpEq => f32Eq a b
  | .cmpLt => f32Lt a b
  | .cmpLe => f32Le a b
  | _ => false

/-- Two or three vectors taken lane by lane. -/
def lanewise (f : W32 → W32 → W32 → W32) (a b c : List W32) : List W32 :=
  (List.range 32).map fun l => f (a.getD l 0) (b.getD l 0) (c.getD l 0)

def opVf (n : Nat) (op : VfOp) (d a b c : Reg) (p : Pred) (s : State) : State :=
  let x := s.spindle n
  if op.isCmp then
    s.retireM n (BitVec.ofNat 3 d.toNat) p (maskOf fun l => vfTest op ((x.v a).getD l 0) ((x.v b).getD l 0))
  else s.retireV n d p (lanewise (vfLane op) (x.v a) (x.v b) (x.v c))

/-- VRSUM.F32: the lanes that the predicate selects, summed exactly (R293). -/
def opVrsum (n : Nat) (d a : Reg) (p : Pred) (s : State) : State :=
  let x := s.spindle n
  let on := x.lanes p
  let l := (List.range 32).filterMap fun i => if on.getLsbD i then some ((x.v a).getD i 0) else none
  s.retireS n d (BitVec.ofNat 64 (f32SumAll l).toNat)

def opVi (n : Nat) (op : AluOp) (d a b : Reg) (p : Pred) (s : State) : State :=
  let x := s.spindle n
  s.retireV n d p (lanewise (fun u v _ => aluEval op u v) (x.v a) (x.v b) [])

def opViCmp (n : Nat) (op : ViCmp) (d : MReg) (a b : Reg) (p : Pred) (s : State) : State :=
  let x := s.spindle n
  s.retireM n d p (maskOf fun l => viCmpHolds op ((x.v a).getD l 0) ((x.v b).getD l 0))

/-- The lanes of 128 bytes, and their bytes (R22, R293). -/
def lanesOfBytes (bs : Bytes) : List W32 := (List.range 32).map fun l => BitVec.ofNat 32 (leAt bs (4 * l) 4)
def bytesOfLanes (v : List W32) : Bytes := v.flatMap fun w => leBytes 4 w.toNat

def opVld (n : Nat) (d a : Reg) (imm : BitVec 28) (s : State) : State :=
  s.orStop n (localAddr ((s.spindle n).s a) imm.toInt 128) fun at_ =>
  (s.setSpindle n ((s.spindle n).setV d (lanesOfBytes (s.localRead n at_ 128)))).retire n

def opVst (n : Nat) (d a : Reg) (imm : BitVec 28) (s : State) : State :=
  let x := s.spindle n
  s.orStop n (localAddr (x.s a) imm.toInt 128) fun at_ =>
  s.orStop n (s.coreWrite n at_ (bytesOfLanes (x.v d))) fun s => s.retire n

/-- MAND, MOR, MXOR, MNOT of two masks. -/
def MaskOp.eval (op : MaskOp) (a b : W32) : W32 :=
  match op with
  | .and => a &&& b
  | .or => a ||| b
  | .xor => a ^^^ b
  | .not => ~~~a

def opMask (n : Nat) (op : MaskOp) (d a b : MReg) (p : Pred) (s : State) : State :=
  let x := s.spindle n
  s.retireM n d p (op.eval (x.m a) (x.m b))

def popCount (v : W32) : Nat := ((List.range 32).filter fun l => v.getLsbD l).length

def opMpop (n : Nat) (d : Reg) (a : MReg) (s : State) : State :=
  s.retireS n d (BitVec.ofNat 64 (popCount ((s.spindle n).m a)))

def opVbcast (n : Nat) (d a : Reg) (p : Pred) (s : State) : State :=
  s.retireV n d p (List.replicate 32 (((s.spindle n).s a).truncate 32))

def opVext (n : Nat) (d a b : Reg) (s : State) : State :=
  let x := s.spindle n
  s.retireS n d (((x.v a).getD ((x.s b).toNat % 32) 0).zeroExtend 64)

def opVperm (n : Nat) (d a b : Reg) (p : Pred) (s : State) : State :=
  let x := s.spindle n
  s.retireV n d p ((List.range 32).map fun l => (x.v a).getD (((x.v b).getD l 0).toNat % 32) 0)

def opVsel (n : Nat) (d a b : Reg) (c : MReg) (p : Pred) (s : State) : State :=
  let x := s.spindle n
  s.retireV n d p ((List.range 32).map fun l => if (x.m c).getLsbD l then (x.v a).getD l 0 else (x.v b).getD l 0)

/-- A curve or its derivative in each lane (R297); the sign of an exactly zero result is free. -/
def opCurve (n : Nat) (c : Curve) (deriv : Bool) (d a : Reg) (p : Pred) (s : State) : State :=
  s.retireV n d p (((s.spindle n).v a).map fun w => curveEval (Config.zeroCurveNeg c.fn deriv w) c deriv w)

/-- CURVE.GUMBEL (R253, R267). -/
def opGumbel (n : Nat) (d a : Reg) (p : Pred) (s : State) : State :=
  s.retireV n d p (((s.spindle n).v a).map gumbelNoise)

/-! ### The rows -/

/-- VADD.F32 to VCMP.LE.F32 (R293). -/
def execVectorF32 (n : Nat) (s : State) : Host.Outcome State Fault Refusal :=
  .next (s.issue n fun i => match i with
    | .vf op d a b c p => some (opVf n op d a b c p)
    | _ => none)

/-- VRSUM.F32 (R293). -/
def execVrsumF32 (n : Nat) (s : State) : Host.Outcome State Fault Refusal :=
  .next (s.issue n fun i => match i with
    | .vrsum d a p => some (opVrsum n d a p)
    | _ => none)

/-- VADD.I32 to VMAX.I32 and the integer comparisons (R293). -/
def execVectorInteger (n : Nat) (s : State) : Host.Outcome State Fault Refusal :=
  .next (s.issue n fun i => match i with
    | .vi op d a b p => some (opVi n op d a b p)
    | .viCmp op d a b p => some (opViCmp n op d a b p)
    | _ => none)

/-- VLD (R291, R293). -/
def execVld (n : Nat) (s : State) : Host.Outcome State Fault Refusal :=
  .next (s.issue n fun i => match i with
    | .vld d a imm => some (opVld n d a imm)
    | _ => none)

/-- VST (R291, R293, R313). -/
def execVst (n : Nat) (s : State) : Host.Outcome State Fault Refusal :=
  .next (s.issue n fun i => match i with
    | .vst d a imm => some (opVst n d a imm)
    | _ => none)

/-- MAND, MOR, MXOR, MNOT (R293). -/
def execMaskOperations (n : Nat) (s : State) : Host.Outcome State Fault Refusal :=
  .next (s.issue n fun i => match i with
    | .mask op d a b p => some (opMask n op d a b p)
    | _ => none)

/-- MPOP (R293): the whole mask register is counted. -/
def execMpop (n : Nat) (s : State) : Host.Outcome State Fault Refusal :=
  .next (s.issue n fun i => match i with
    | .mpop d a _ => some (opMpop n d a)
    | _ => none)

/-- VBCAST (R293). -/
def execVbcast (n : Nat) (s : State) : Host.Outcome State Fault Refusal :=
  .next (s.issue n fun i => match i with
    | .vbcast d a p => some (opVbcast n d a p)
    | _ => none)

/-- VEXT (R293). -/
def execVext (n : Nat) (s : State) : Host.Outcome State Fault Refusal :=
  .next (s.issue n fun i => match i with
    | .vext d a b _ => some (opVext n d a b)
    | _ => none)

/-- VPERM (R293). -/
def execVperm (n : Nat) (s : State) : Host.Outcome State Fault Refusal :=
  .next (s.issue n fun i => match i with
    | .vperm d a b p => some (opVperm n d a b p)
    | _ => none)

/-- VSEL (R293). -/
def execVsel (n : Nat) (s : State) : Host.Outcome State Fault Refusal :=
  .next (s.issue n fun i => match i with
    | .vsel d a b c p => some (opVsel n d a b c p)
    | _ => none)

/-- CURVE.<name> (R297). -/
def execCurve (n : Nat) (s : State) : Host.Outcome State Fault Refusal :=
  .next (s.issue n fun i => match i with
    | .curve c false d a p => some (opCurve n c false d a p)
    | _ => none)

/-- CURVE.D.<name> (R297). -/
def execCurveD (n : Nat) (s : State) : Host.Outcome State Fault Refusal :=
  .next (s.issue n fun i => match i with
    | .curve c true d a p => some (opCurve n c true d a p)
    | _ => none)

/-- CURVE.GUMBEL (R267). -/
def execCurveGumbel (n : Nat) (s : State) : Host.Outcome State Fault Refusal :=
  .next (s.issue n fun i => match i with
    | .gumbel d a p => some (opGumbel n d a p)
    | _ => none)

end Sys2Proof.Machine
end

