-- ==== Sys2Proof/Machine/Xfer.lean ====
section
/-!
DEFINITION. PULL.A and PUSH.A: transfers by device address, and the turn of a tile (R154–R162, R308).
-/
namespace Sys2Proof.Machine

/-- Step 5 of a turn's checks (R155): the destination formats that its source allows; every axis is accepted. -/
def acceptTurn (dst : Fmt) (d : Desc) : Option W16 :=
  match Fmt.ofCode d.format with
  | some src => if turnAllowed src dst then none else some 0x0206
  | none => some 0x0206

/-- A turned image lands, or stops the station: under EXACT at the first element that changes, and where the bytes may not be written. What
follows has the turn's result (R156–R161, R194). -/
def State.landTurn (s : State) (n at_ : Nat) (t : Tile) (dst : Fmt) (exact : Bool) (k : Turned → State → State) : State :=
  let u := turnTile t dst
  if exact && u.inexact != 0 then s.stopTile n (t.desc.fail 0x020A u.firstInexact) else
  s.mayDeliver n at_ u.image.length fun s => k u (s.landImage n at_ u.image)

/-- The report of a turn (R194). -/
def State.reportTurn (s : State) (n : Nat) (tref : W64) (t : Tile) (u : Turned) : State :=
  s.sendReport { tref := tref, spindle := n, counts := u.counts, nonzero := u.nonzero, fit := fitHold u.fit, col := t.desc.col,
                 chans := [], stalled := false }

/-- The turned image of the source, its report and its status (R156–R161, R194, R308). A turn out of an exchange bank reports when it retires,
since words of it may still have to be read once more (R321). -/
def State.turnFrom (s : State) (n src at_ : Nat) (d : Reg) (tref : W64) (dst : Fmt) (exact : Bool) : State :=
  let x := s.spindle n
  let bytes := s.loadNew src (Desc.parse (s.loadNew src 64)).stored
  match s.consume (Consumer.onDie (dieOfSpindle n) 0x30 (skeinOf n)) src (acceptTurn dst) with
  | (.error f, s) => s.stopTile n f
  | (.ok t, s) =>
    s.orStop n (s.tileTracker x.station tref t.desc.tensor t.desc.col) fun _ =>
    s.landTurn n at_ t dst exact fun u s =>
    let s := if inExchange src then s else s.reportTurn n tref t u
    let s := (s.count (pgSKN (skeinOf n)) 2 1).inFlight n src (localBase n + at_) (some d) (pullAStatus u.image.length u.inexact)
    if !(inExchange src) then s else
    let y := s.spindle n
    s.setSpindle n { y with own := y.own.map fun (o : OwnXfer) =>
      { o with turn := some ⟨src, at_, d, tref, dst, exact, bytes, false⟩ } }

/-- The spindle's own transfer retires (R306). -/
def State.retireOwn (s : State) (n : Nat) : State :=
  let x := s.spindle n
  match x.own with
  | none => s
  | some o =>
    let s := s.arrive n false 0
    let s := s.moved (skeinOf n) (o.status.toNat % 2 ^ 32)
    let s := (s.setSpindle n { x with own := none }).freeQuota (skeinOf n) x.station
    match o.dest with
    | some d => s.retireS n d o.status
    | none => s.retire n

/-- A turn out of an exchange bank retires: with words that came back torn the turn is made again with what was read then, and what fails the
checks at use now stops the station (R321, R365). -/
def State.retireTurn (s : State) (n : Nat) (o : OwnXfer) (j : TurnJob) : State :=
  match checkTile j.bytes (acceptTurn j.fmt) with
  | .error f =>
    let (g, s) := s.refetch (Consumer.onDie (dieOfSpindle n) 0x30 (skeinOf n)) j.src j.bytes
    s.stopTile n (if f.code == 0x0301 then g else f)
  | .ok t =>
    if !j.torn then (s.reportTurn n j.tref t (turnTile t j.fmt)).retireOwn n else
    s.landTurn n j.at_ t j.fmt j.exact fun u s =>
    let s := s.setSpindle n { s.spindle n with own := some { o with status := pullAStatus u.image.length u.inexact } }
    (s.reportTurn n j.tref t u).retireOwn n

/-- PULL.A (R308). `same` says that its read of an exchange bank comes in the same cycle as the bank's last access (R319). -/
def opPullA (n : Nat) (same : Bool) (turn : Option Fmt) (d a b c : Reg) (exact : Bool) (s : State) : State :=
  let x := s.spindle n
  let src := (x.s a).toNat
  s.orStop n (localAddr (x.s b) 0 64) fun at_ =>
  s.admitted n src 64 false fun s =>
  s.onRoute n src (localBase n + at_) .unit fun s =>
  s.takeQuota n fun s =>
  let len := (Desc.parse (s.loadNew src 64)).stored
  s.admitted n src len false fun s =>
  match turn with
  | none =>
    s.deliver n at_ src (s.loadNew src len) fun s =>
    (s.exchangeAt n src len true same false false (.image at_)).1.inFlight n src (localBase n + at_) (some d) (pullAStatus len 0)
  | some dst => (s.exchangeAt n src len true same false false .turn).1.turnFrom n src at_ d (x.s c) dst exact

/-- An image leaves local memory for device address `dst`; in a spindle's local memory it is verified as it arrives (R102, R308). -/
def State.deliverOut (s : State) (n at_ dst : Nat) (img : Bytes) (k : State → State) : State :=
  match localParts dst img.length with
  | [(m, off, _)] =>
    match s.arrival n (localBase n + at_) img with
    | (.error f, s) => s.stopTile n f
    | (.ok s, _) => k (s.landImage m off img)
  | _ => k (s.devicePut dst img (some n))

/-- PUSH.A (R307, R308), with `same` as for PULL.A. -/
def opPushA (n : Nat) (same : Bool) (d a b : Reg) (s : State) : State :=
  let x := s.spindle n
  s.orStop n (localAddr (x.s b) 0 64) fun at_ =>
  s.orStop n (s.imageOut n at_) fun img =>
  let dst := (x.s a).toNat
  s.admitted n dst img.length true fun s =>
  s.onRoute n (localBase n + at_) dst .unit fun s =>
  s.takeQuota n fun s =>
  s.deliverOut n at_ dst img fun s =>
  (s.exchangeAt n dst img.length true same true false .none).1.inFlight n (localBase n + at_) dst (some d) (pullStatus img.length false)

/-! ### Completion (R306) -/

/-- The spindle's own transfer has moved its data, once nothing issued before it on its route is under way (R27, R306). -/
def State.completeOwn (s : State) (n : Nat) : State :=
  match (s.spindle n).own with
  | none => s
  | some o =>
    if o.mask || !(s.mayArrive n false 0) then s else
    match o.turn with
    | some j => s.retireTurn n o j
    | none => s.retireOwn n

/-! ### The rows -/

/-- PULL.A (R308). -/
def execPullA (x : StreamIssue) (s : State) : Host.Outcome State Fault Refusal :=
  .next (s.issue x.n fun i => match i with
    | .pullA turn d a b c exact => some (opPullA x.n x.same turn d a b c exact)
    | _ => none)

/-- PUSH.A (R308). -/
def execPushA (x : StreamIssue) (s : State) : Host.Outcome State Fault Refusal :=
  .next (s.issue x.n fun i => match i with
    | .pushA d a b => some (opPushA x.n x.same d a b)
    | _ => none)

/-- TRANSFER_COMPLETE (R306): an own transfer of the spindle, or a prologue copy into it, has moved its data. -/
def execTransferComplete (n : Nat) (prologue : Bool) (s : State) : Host.Outcome State Fault Refusal :=
  .next (if !s.jobLive || s.paused then s else if prologue then s.completeCopy n else s.completeOwn n)

end Sys2Proof.Machine
end

