-- ==== Sys2Proof/Machine/Dispatch.lean ====
section
/-!
DEFINITION. One arm per command: the meaning it calls.
-/
namespace Sys2Proof.Machine
open Sys2Proof

def exec (i : Instr) (s : State) : Host.Outcome State Fault Refusal :=
  match i with
  | .scalarAlu n => Sys2Proof.Machine.execScalarAlu n s
  | .aluImmediate n => Sys2Proof.Machine.execAluImmediate n s
  | .li n => Sys2Proof.Machine.execLi n s
  | .ld n => Sys2Proof.Machine.execLd n s
  | .st n => Sys2Proof.Machine.execSt n s
  | .ldD n same => Sys2Proof.Machine.execLdD n same s
  | .stD n same => Sys2Proof.Machine.execStD n same s
  | .atomD n same => Sys2Proof.Machine.execAtomD n same s
  | .atom n => Sys2Proof.Machine.execAtom n s
  | .conditionalBranch n => Sys2Proof.Machine.execConditionalBranch n s
  | .jal n => Sys2Proof.Machine.execJal n s
  | .jr n => Sys2Proof.Machine.execJr n s
  | .movs n => Sys2Proof.Machine.execMovs n s
  | .endStation n => Sys2Proof.Machine.execEndStation n s
  | .vectorF32 n => Sys2Proof.Machine.execVectorF32 n s
  | .vrsumF32 n => Sys2Proof.Machine.execVrsumF32 n s
  | .vectorInteger n => Sys2Proof.Machine.execVectorInteger n s
  | .vld n => Sys2Proof.Machine.execVld n s
  | .vst n => Sys2Proof.Machine.execVst n s
  | .maskOperations n => Sys2Proof.Machine.execMaskOperations n s
  | .mpop n => Sys2Proof.Machine.execMpop n s
  | .vbcast n => Sys2Proof.Machine.execVbcast n s
  | .vext n => Sys2Proof.Machine.execVext n s
  | .vperm n => Sys2Proof.Machine.execVperm n s
  | .vsel n => Sys2Proof.Machine.execVsel n s
  | .cvt n => Sys2Proof.Machine.execCvt n s
  | .curve n => Sys2Proof.Machine.execCurve n s
  | .curveD n => Sys2Proof.Machine.execCurveD n s
  | .curveGumbel n => Sys2Proof.Machine.execCurveGumbel n s
  | .fmmLdw n => Sys2Proof.Machine.execFmmLdw n s
  | .fmm n => Sys2Proof.Machine.execFmm n s
  | .bmmLdb n => Sys2Proof.Machine.execBmmLdb n s
  | .bmm n => Sys2Proof.Machine.execBmm n s
  | .arrayPassRetire n => Sys2Proof.Machine.execArrayPassRetire n s
  | .bmmDefer n => Sys2Proof.Machine.execBmmDefer n s
  | .bmmDone n => Sys2Proof.Machine.execBmmDone n s
  | .bmmYieldQ n => Sys2Proof.Machine.execBmmYieldQ n s
  | .bmmYieldK n => Sys2Proof.Machine.execBmmYieldK n s
  | .bmmFlush n => Sys2Proof.Machine.execBmmFlush n s
  | .escTerm n => Sys2Proof.Machine.execEscTerm n s
  | .accOpen n => Sys2Proof.Machine.execAccOpen n s
  | .accRnd n => Sys2Proof.Machine.execAccRnd n s
  | .accSave n => Sys2Proof.Machine.execAccSave n s
  | .accAddx n => Sys2Proof.Machine.execAccAddx n s
  | .accClear n => Sys2Proof.Machine.execAccClear n s
  | .pull n => Sys2Proof.Machine.execPull n s
  | .pullH n => Sys2Proof.Machine.execPullH n s
  | .pullRel n => Sys2Proof.Machine.execPullRel n s
  | .push n => Sys2Proof.Machine.execPush n s
  | .pushClose n => Sys2Proof.Machine.execPushClose n s
  | .pullA x => Sys2Proof.Machine.execPullA x s
  | .pushA x => Sys2Proof.Machine.execPushA x s
  | .transferComplete n prologue => Sys2Proof.Machine.execTransferComplete n prologue s
  | .knotAdd n => Sys2Proof.Machine.execKnotAdd n s
  | .knotSet n => Sys2Proof.Machine.execKnotSet n s
  | .knotWge n => Sys2Proof.Machine.execKnotWge n s
  | .knotWeq n => Sys2Proof.Machine.execKnotWeq n s
  | .knotRd n => Sys2Proof.Machine.execKnotRd n s
  | .knotWake die => Sys2Proof.Machine.execKnotWake die s
  | .knotTimeout n => Sys2Proof.Machine.execKnotTimeout n s
  | .queueTimeout n => Sys2Proof.Machine.execQueueTimeout n s
  | .queueFullTimeout n => Sys2Proof.Machine.execQueueFullTimeout n s
  | .rngU n => Sys2Proof.Machine.execRngU n s
  | .rngN n => Sys2Proof.Machine.execRngN n s
  | .rngMask n => Sys2Proof.Machine.execRngMask n s
  | .maskComplete k => Sys2Proof.Machine.execMaskComplete k s
  | .rngSample n => Sys2Proof.Machine.execRngSample n s
  | .sampleRequestServe die => Sys2Proof.Machine.execSampleRequestServe die s
  | .evtMark n => Sys2Proof.Machine.execEvtMark n s
  | .evtTrig n => Sys2Proof.Machine.execEvtTrig n s
  | .bankGive n => Sys2Proof.Machine.execBankGive n s
  | .bankTake n => Sys2Proof.Machine.execBankTake n s
  | .bankShare n => Sys2Proof.Machine.execBankShare n s
  | .stationStart station sliver => Sys2Proof.Machine.execStationStart station sliver s
  | .startSeqGrant => Sys2Proof.Machine.execStartSeqGrant s
  | .skeinReady k => Sys2Proof.Machine.execSkeinReady k s
  | .powerDomainRaise domain => Sys2Proof.Machine.execPowerDomainRaise domain s
  | .prologueTrigger station k => Sys2Proof.Machine.execPrologueTrigger station k s
  | .stationWatchdog station => Sys2Proof.Machine.execStationWatchdog station s
  | .trackerReport k => Sys2Proof.Machine.execTrackerReport k s
  | .trackerStep k j => Sys2Proof.Machine.execTrackerStep k j s
  | .trackerWaitTimeout n => Sys2Proof.Machine.execTrackerWaitTimeout n s
  | .spillReservation k => Sys2Proof.Machine.execSpillReservation k s
  | .spillWait n => Sys2Proof.Machine.execSpillWait n s
  | .spillWaitTimeout n => Sys2Proof.Machine.execSpillWaitTimeout n s
  | .genSlotBuilt => Sys2Proof.Machine.execGenSlotBuilt s
  | .beatEdge => Sys2Proof.Machine.execBeatEdge s
  | .vote f => Sys2Proof.Machine.execVote f s
  | .tally f => Sys2Proof.Machine.execTally f s
  | .commit f => Sys2Proof.Machine.execCommit f s
  | .defer f => Sys2Proof.Machine.execDefer f s
  | .commitComplete us => Sys2Proof.Machine.execCommitComplete us s
  | .commitUndecided => Sys2Proof.Machine.execCommitUndecided s
  | .stop f => Sys2Proof.Machine.execStop f s
  | .bypass f => Sys2Proof.Machine.execBypass f s
  | .unbypass f => Sys2Proof.Machine.execUnbypass f s
  | .nop f => Sys2Proof.Machine.execNop f s
  | .treadleLost => Sys2Proof.Machine.execTreadleLost s
  | .bypassSwitchChange => Sys2Proof.Machine.execBypassSwitchChange s
  | .ringHoldExpiry => Sys2Proof.Machine.execRingHoldExpiry s
  | .roster p => Sys2Proof.Machine.execRoster p s
  | .heartbeat p => Sys2Proof.Machine.execHeartbeat p s
  | .heartbeatTimer => Sys2Proof.Machine.execHeartbeatTimer s
  | .failed p => Sys2Proof.Machine.execFailed p s
  | .takeover p => Sys2Proof.Machine.execTakeover p s
  | .status p => Sys2Proof.Machine.execStatus p s
  | .collateralWaitExpiry => Sys2Proof.Machine.execCollateralWaitExpiry s
  | .hello p => Sys2Proof.Machine.execHello p s
  | .prove p => Sys2Proof.Machine.execProve p s
  | .openOk p => Sys2Proof.Machine.execOpenOk p s
  | .openRefused p => Sys2Proof.Machine.execOpenRefused p s
  | .ack p => Sys2Proof.Machine.execAck p s
  | .probe p => Sys2Proof.Machine.execProbe p s
  | .resync p => Sys2Proof.Machine.execResync p s
  | .resyncAck p => Sys2Proof.Machine.execResyncAck p s
  | .close p => Sys2Proof.Machine.execClose p s
  | .closeAck p => Sys2Proof.Machine.execCloseAck p s
  | .identify p => Sys2Proof.Machine.execIdentify p s
  | .regRead p => Sys2Proof.Machine.execRegRead p s
  | .regWrite p => Sys2Proof.Machine.execRegWrite p s
  | .subscribe p => Sys2Proof.Machine.execSubscribe p s
  | .jobLoad p b => Sys2Proof.Machine.execJobLoad p b s
  | .jobUnload p => Sys2Proof.Machine.execJobUnload p s
  | .bulkCreateSnapshot p => Sys2Proof.Machine.execBulkCreateSnapshot p s
  | .bulkCreateImage p => Sys2Proof.Machine.execBulkCreateImage p s
  | .bulkCreateJobBundle p => Sys2Proof.Machine.execBulkCreateJobBundle p s
  | .bulkCreateRestore p => Sys2Proof.Machine.execBulkCreateRestore p s
  | .bulkCreateDump p => Sys2Proof.Machine.execBulkCreateDump p s
  | .bulkCreateTrace p => Sys2Proof.Machine.execBulkCreateTrace p s
  | .bulkCancel p => Sys2Proof.Machine.execBulkCancel p s
  | .dump p => Sys2Proof.Machine.execDump p s
  | .attest p => Sys2Proof.Machine.execAttest p s
  | .bulkData p => Sys2Proof.Machine.execBulkData p s
  | .bulkJournal p => Sys2Proof.Machine.execBulkJournal p s
  | .bulkEnd p => Sys2Proof.Machine.execBulkEnd p s
  | .bulkAbort p => Sys2Proof.Machine.execBulkAbort p s
  | .tileSeg p => Sys2Proof.Machine.execTileSeg p s
  | .tileResend p => Sys2Proof.Machine.execTileResend p s
  | .grant p => Sys2Proof.Machine.execGrant p s
  | .contribRetry p => Sys2Proof.Machine.execContribRetry p s
  | .gatherReq g => Sys2Proof.Machine.execGatherReq g s
  | .versionGone p => Sys2Proof.Machine.execVersionGone p s
  | .abort p => Sys2Proof.Machine.execAbort p s
  | .count p => Sys2Proof.Machine.execCount p s
  | .tSusExpiry slot => Sys2Proof.Machine.execTSusExpiry slot s
  | .idleProbe slot => Sys2Proof.Machine.execIdleProbe slot s
  | .tDeadExpiry slot => Sys2Proof.Machine.execTDeadExpiry slot s
  | .tOpenExpiry slot => Sys2Proof.Machine.execTOpenExpiry slot s
  | .helloRepeat slot => Sys2Proof.Machine.execHelloRepeat slot s
  | .resyncRepeat slot => Sys2Proof.Machine.execResyncRepeat slot s
  | .closeRepeat slot => Sys2Proof.Machine.execCloseRepeat slot s
  | .ackDelayExpiry slot => Sys2Proof.Machine.execAckDelayExpiry slot s
  | .retransmissionTimeout slot => Sys2Proof.Machine.execRetransmissionTimeout slot s
  | .bulkHoldExpiry op => Sys2Proof.Machine.execBulkHoldExpiry op s
  | .bulkHelloRepeat op => Sys2Proof.Machine.execBulkHelloRepeat op s
  | .bulkJournalTimer op => Sys2Proof.Machine.execBulkJournalTimer op s
  | .eventRateInterval => Sys2Proof.Machine.execEventRateInterval s
  | .ethFrameRx fr => Sys2Proof.Machine.execEthFrameRx fr s
  | .portDown port => Sys2Proof.Machine.execPortDown port s
  | .portRejoin port => Sys2Proof.Machine.execPortRejoin port s
  | .collectiveTrigger rec => Sys2Proof.Machine.execCollectiveTrigger rec s
  | .collectiveTimeout rec => Sys2Proof.Machine.execCollectiveTimeout rec s
  | .stratumScrub die r => Sys2Proof.Machine.execStratumScrub die r s
  | .lpdScrub q r => Sys2Proof.Machine.execLpdScrub q r s
  | .lpdRetrain q chan ok => Sys2Proof.Machine.execLpdRetrain q chan ok s
  | .mortarLinkDown link => Sys2Proof.Machine.execMortarLinkDown link s
  | .mgmtWatchdogMiss => Sys2Proof.Machine.execMgmtWatchdogMiss s
  | .stratumClearDone die => Sys2Proof.Machine.execStratumClearDone die s
  | .lpdClearDone q => Sys2Proof.Machine.execLpdClearDone q s
  | .snapProtectedWrite page => Sys2Proof.Machine.execSnapProtectedWrite page s
  | .snapCopyDone page => Sys2Proof.Machine.execSnapCopyDone page s
  | .snapStreamPage => Sys2Proof.Machine.execSnapStreamPage s
  | .snapStreamReadDone => Sys2Proof.Machine.execSnapStreamReadDone s
  | .snapPoolTimeout => Sys2Proof.Machine.execSnapPoolTimeout s
  | .powerOn u => Sys2Proof.Machine.execPowerOn u s
  | .pwrEnFall => Sys2Proof.Machine.execPwrEnFall s
  | .vinOvervoltage => Sys2Proof.Machine.execVinOvervoltage s
  | .vinSwitchClose => Sys2Proof.Machine.execVinSwitchClose s
  | .vinHigh => Sys2Proof.Machine.execVinHigh s
  | .sagDetect => Sys2Proof.Machine.execSagDetect s
  | .sagPaused => Sys2Proof.Machine.execSagPaused s
  | .sagGatherDone => Sys2Proof.Machine.execSagGatherDone s
  | .sagSaveDone us => Sys2Proof.Machine.execSagSaveDone us s
  | .sagRecovery => Sys2Proof.Machine.execSagRecovery s
  | .sagHoldTimeout => Sys2Proof.Machine.execSagHoldTimeout s
  | .vrstReset => Sys2Proof.Machine.execVrstReset s
  | .sagEraseDone => Sys2Proof.Machine.execSagEraseDone s
  | .governorTick m => Sys2Proof.Machine.execGovernorTick m s
  | .coolantLimit => Sys2Proof.Machine.execCoolantLimit s
  | .pwrModeWrite v => Sys2Proof.Machine.execPwrModeWrite v s
  | .pwrPeakGrantWrite v => Sys2Proof.Machine.execPwrPeakGrantWrite v s
  | .peakLeaseExpiry => Sys2Proof.Machine.execPeakLeaseExpiry s
  | .capTestAbandon => Sys2Proof.Machine.execCapTestAbandon s
  | .pwrPinRead => Sys2Proof.Machine.execPwrPinRead s
  | .boot => Sys2Proof.Machine.execBoot s
  | .imageResetTimer => Sys2Proof.Machine.execImageResetTimer s
  | .fuseRole arg origin => Sys2Proof.Machine.execFuseRole arg origin s
  | .fuseSvnMin arg origin => Sys2Proof.Machine.execFuseSvnMin arg origin s
  | .fuseRevoke arg origin => Sys2Proof.Machine.execFuseRevoke arg origin s
  | .fuseOwnerInstall arg origin => Sys2Proof.Machine.execFuseOwnerInstall arg origin s
  | .fuseAddressBlock arg origin => Sys2Proof.Machine.execFuseAddressBlock arg origin s
  | .fuseLifeCycle arg origin => Sys2Proof.Machine.execFuseLifeCycle arg origin s
  | .fuseLedgerSelWrite v => Sys2Proof.Machine.execFuseLedgerSelWrite v s
  | .tamper src => Sys2Proof.Machine.execTamper src s
  | .secTamperClear v active => Sys2Proof.Machine.execSecTamperClear v active s
  | .pageLock page => Sys2Proof.Machine.execPageLock page s
  | .sreset page => Sys2Proof.Machine.execSreset page s
  | .enableWrite page on => Sys2Proof.Machine.execEnableWrite page on s
  | .errValidClear page => Sys2Proof.Machine.execErrValidClear page s
  | .evtPendClear page v => Sys2Proof.Machine.execEvtPendClear page v s
  | .evtForce page v => Sys2Proof.Machine.execEvtForce page v s
  | .counterSnap page => Sys2Proof.Machine.execCounterSnap page s
  | .plyTrkSelWrite k v => Sys2Proof.Machine.execPlyTrkSelWrite k v s
  | .queSelWrite die v => Sys2Proof.Machine.execQueSelWrite die v s
  | .kntSelWrite die v => Sys2Proof.Machine.execKntSelWrite die v s
  | .mrnSessSelWrite e v => Sys2Proof.Machine.execMrnSessSelWrite e v s
  | .plyChanFactorWrite k v => Sys2Proof.Machine.execPlyChanFactorWrite k v s
  | .lpdCtlClear q v => Sys2Proof.Machine.execLpdCtlClear q v s
  | .strFailValidClear die => Sys2Proof.Machine.execStrFailValidClear die s
  | .trdCtlBypass v => Sys2Proof.Machine.execTrdCtlBypass v s
  | .evtSelWrite v => Sys2Proof.Machine.execEvtSelWrite v s
  | .evtEnt7Write v => Sys2Proof.Machine.execEvtEnt7Write v s
  | .makeSpare => Sys2Proof.Machine.execMakeSpare s
  | .trdPosLoRead => Sys2Proof.Machine.execTrdPosLoRead s
  | .trcCtlTrig => Sys2Proof.Machine.execTrcCtlTrig s
  | .trcCtlRearm => Sys2Proof.Machine.execTrcCtlRearm s
  | .ringFreeze page => Sys2Proof.Machine.execRingFreeze page s
  | .postMaxExpiry => Sys2Proof.Machine.execPostMaxExpiry s
  | .bulkStallTrigger op => Sys2Proof.Machine.execBulkStallTrigger op s
  | .wearDailySample => Sys2Proof.Machine.execWearDailySample s
  | .mntReqCapTest => Sys2Proof.Machine.execMntReqCapTest s
  | .mntReqMarginScan port => Sys2Proof.Machine.execMntReqMarginScan port s
  | .mntReqCompact => Sys2Proof.Machine.execMntReqCompact s
  | .mntReqAgeCal => Sys2Proof.Machine.execMntReqAgeCal s
  | .mntReqBypassTest => Sys2Proof.Machine.execMntReqBypassTest s
  | .mntPeriodicRequest act => Sys2Proof.Machine.execMntPeriodicRequest act s
  | .maintActivityEnd act d => Sys2Proof.Machine.execMaintActivityEnd act d s
  | .mntDeferTimeout act => Sys2Proof.Machine.execMntDeferTimeout act s
  | .maintWindowClose => Sys2Proof.Machine.execMaintWindowClose s
  | .ringLock => Sys2Proof.Machine.execRingLock s
  | .ethLinkUp port lanes speed => Sys2Proof.Machine.execEthLinkUp port lanes speed s
  | .vinLowBeforePg => Sys2Proof.Machine.execVinLowBeforePg s

end Sys2Proof.Machine
end

