-- ==== Sys2Proof/Machine/Tick.lean ====
section
/-!
DEFINITION. A cycle in which no command arrives (R50).
-/
namespace Sys2Proof.Machine

/-- While the module has power, the stamps of Q0, Q1 and every compute die that is awake count one more; they wrap at
48 bits (R50). -/
def State.tickStamps (s : State) : State :=
  if !s.power.pg then s else
  let dies := [4, 5] ++ (List.range 4).filter fun d => (s.die d).awake
  dies.foldl (fun s d => { s with stamps := s.stamps.set 0 d ((s.stamp d + 1) % 2 ^ 48) }) s

/-- A cell or a link of DRAM may err in a cycle: a free value says where (R358, R362; DESIGN CHOICE, log entry 112). -/
def State.upset (s : State) : State :=
  if !s.power.pg then s else
  let (i, s) := s.draw
  match Config.upset i with
  | none => s
  | some (all, w) =>
    if !(isDram (8 * w) && s.backed (8 * w)) then s
    else if all then s.spoil (w / 8)
    else if s.soft.contains w then s else { s with soft := s.soft ++ [w] }

/-- A cycle without a command: the stamps advance, a firmware slot that is being programmed is finished, and DRAM may err (R50, R358, R362,
R604). -/
def State.tick (s : State) : State := s.tickStamps.finishSlot.upset

end Sys2Proof.Machine
end

