-- ==== Sys2Proof/Safety.lean ====
section
/-!
DEFINITION. What counts as a safe state, in the terms the statements use: the memory and the register files keep their
canonical form; that two states differ only in what they have noted; and that the sampling requests that wait are as before.
-/
namespace Sys2Proof.Machine

/-- Memory in canonical form: addresses strictly rising, no byte listed that an unlisted address reads as. -/
def Memory.wf (m : Tbl Byte) : Bool := m.wf 0

/-- The register tables of a spindle are in canonical form. -/
def Spindle.regsOk (x : Spindle) : Bool :=
  x.regs.s.wf 0 && x.regs.v.wf 0 && x.regs.m.wf 0 && x.regs.s2.wf 0 && x.regs.v2.wf 0 && x.regs.m2.wf 0

/-- The memory of a state is in canonical form. -/
def State.memOk (s : State) : Bool := Memory.wf s.mem

/-- The states differ at most in what a unit notes as it acts: page headers (counters, events, latches), trace rings and triggers,
messages to sessions, and the allowance of EVENTs (R629–R653). -/
def State.notesOnly (s t : State) : Prop :=
  t = { s with pages := t.pages, rings := t.rings, trace := t.trace, mrn := t.mrn, evtSent := t.evtSent }

/-- A sampling request without the marks of the rows that writes have changed. -/
def SampleReq.unmarked (q : SampleReq) : SampleReq := { q with changed := [] }

def Sampler.unmarked (u : Sampler) : Sampler :=
  { u with queue := u.queue.map SampleReq.unmarked, ending := u.ending.map SampleReq.unmarked }

/-- The sampling requests that wait differ at most in the rows that a write has changed (R271). -/
def State.requestsKept (s t : State) : Prop := t.smp.mapV Sampler.unmarked = s.smp.mapV Sampler.unmarked

end Sys2Proof.Machine
end

