-- ==== Sys2Proof/Certificates/Slice0/Obligations.lean ====
section
/-!
DEFINITION. The statements about the model, for the provers. Helpers first: what it means that a spindle issues an instruction,
that a command completes, and what an instruction that retires leaves unchanged.
-/
namespace Sys2Proof.Claims
open Sys2Proof.Machine

/-- Spindle `n` may issue, and the word at its PC decodes to `i`. -/
def issues (s : State) (n : Nat) (i : SpInstr) : Prop :=
  s.mayIssue n = true ∧ ∃ w, s.fetch n = .ok w ∧ decodeSp w = some i

/-- The command answers a next state, and `P` holds of it. -/
def completes (c : Instr) (s : State) (P : State → Prop) : Prop := ∃ t, exec c s = .next t ∧ P t

/-- The header of spindle `n`'s page after one more retired instruction, the count saturating (R322, R633). -/
def countedPage (s : State) (n : Nat) : PageHdr :=
  let h := s.page (pgSPD n)
  { h with ctr := h.ctr.set 0 0 (satAdd (2 ^ ctrWidth (pgSPD n) 0 - 1) (h.counter 0) 1) }

/-- Every other spindle and every other page are as before. -/
def othersKept (s t : State) (n : Nat) : Prop :=
  (∀ m, m ≠ n → t.spindle m = s.spindle m) ∧ (∀ p, p ≠ pgSPD n → t.page p = s.page p)

/-- The instruction has retired: the spindle is `x` at `pc`, its page counts it, and nothing else has changed, memory included. -/
def retires (s t : State) (n : Nat) (x : Spindle) (pc : Nat) : Prop :=
  t.spindle n = { x with pc := pc % 2 ^ 32, run := .run, wait := .none } ∧ t.page (pgSPD n) = countedPage s n
    ∧ othersKept s t n ∧ t = { s with sp := t.sp, pages := t.pages }

/-- `bs` reads back at device address `a`, and every other byte of memory reads as before. -/
def wrote (s t : State) (a : Nat) (bs : Bytes) : Prop :=
  ∀ b, t.mem.get 0 b = if a ≤ b ∧ b < a + bs.length then bs.getD (b - a) 0 else s.mem.get 0 b

/-- A page header with counter `k` raised by `c`, saturating (R633). -/
def counted (h : PageHdr) (page k c : Nat) : PageHdr :=
  { h with ctr := h.ctr.set 0 k (satAdd (2 ^ ctrWidth page k - 1) (h.counter k) c) }

/-- The same for an instruction that stores `bs` at device address `a`: those bytes read back, every other byte of memory reads as
before, only marks of verified images may go (R102), and a waiting sampling request may be marked as changed (R271). -/
def retiresStoring (s t : State) (n : Nat) (x : Spindle) (pc a : Nat) (bs : Bytes) : Prop :=
  t.spindle n = { x with pc := pc % 2 ^ 32, run := .run, wait := .none, verified := (t.spindle n).verified }
    ∧ t.page (pgSPD n) = countedPage s n ∧ othersKept s t n
    ∧ t = { s with sp := t.sp, pages := t.pages, mem := t.mem, bad := t.bad, soft := t.soft, smp := t.smp }
    ∧ s.requestsKept t ∧ wrote s t a bs

/-- Spindle `n` has entered deferred mode at `entry` with the oldest record's arguments (R174); elsewhere only notes have changed. -/
def runsRecord (s t : State) (n : Nat) (img : StationImage) (entry : Nat) : Prop :=
  let x := s.spindle n
  let r := s.localRead n (img.ringAddr x.ringHead) 64
  let args := (List.range 7).map fun i => (BitVec.ofNat 64 (leAt r (8 + 8 * i) 8) : W64)
  t.spindle n = { x with
    deferred := true, retPc := x.pc, pc := entry, run := .run, wait := .none,
    regs := { x.regs with s2 := x.regs.s2.setRun 0 16 (args ++ [BitVec.ofNat 64 (leAt r 0 2), BitVec.ofNat 64 (leAt r 4 4)]) } }
  ∧ (∀ m, m ≠ n → t.spindle m = s.spindle m) ∧ ({ s with sp := t.sp } : State).notesOnly t

/-- The spindle's own transfer holds a slot of its station's quota already, or the quota has room for it (R45, R345). -/
def quotaRoom (s : State) (n : Nat) : Prop :=
  let x := s.spindle n
  (∃ q, x.wait = .pull q ∨ x.wait = .push q) ∨
    (s.skein (skeinOf n)).quotaUsed.get 0 x.station < ((s.station x.station).map fun t => t.img.quota.get 0 (skeinOf n)).getD 0

/-- Spindle `n` waits for its own transfer, whose status will go to register `d`; its PC still names the instruction (R306). A turn out of
an exchange bank holds what it has read (R321). -/
def underWay (s t : State) (n : Nat) (d : Reg) (status : W64) (turn : Option TurnJob) : Prop :=
  (t.spindle n).own = some ⟨some d, status, false, turn⟩ ∧ (t.spindle n).run = .waitTransfer ∧ (t.spindle n).pc = (s.spindle n).pc

/-- The same of a transfer that turns nothing, with no register changed yet. -/
def transferring (s t : State) (n : Nat) (d : Reg) (status : W64) : Prop :=
  underWay s t n d status none ∧ (t.spindle n).regs = (s.spindle n).regs

/-- A write at `a` cannot tear the access before it: it meets no exchange bank, or one whose last access is no read of port 0 (R318, R319). -/
def tearsNone (s : State) (a : Nat) : Prop :=
  ∀ k p, regionOf a = .pool k → exchangeBase k ≤ a → (s.skein k).xbLast = some p → p.write = true ∨ p.atomic = true ∨ p.port ≠ 0

/-- The image that lies at `a` arrives sound: no line of it comes with UNCORR, and it passes step 1 of the checks at use (R86, R364). -/
def arrivesSound (s : State) (a : Nat) (img : Bytes) : Prop :=
  s.uncorr a img.length = false ∧ ∀ f, checkHead img = .error f → f.code ≠ 0x0301

/-- A write of the range lands at once: no page of it is held, and no write waits before it (R356, R376, R381). -/
def landsAtOnce (s : State) (a n : Nat) : Prop := (pagesOf a n).any s.pageHeld = false ∧ s.snap.waits = []

/-- The job has stopped with record `r`: every spindle as the stop leaves it, no waiter left, memory untouched (R284, R329). -/
def stoppedWith (s t : State) (r : StopRec) : Prop :=
  t.job.state = .stopped ∧ t.job.stop = r ∧ (∀ m, t.spindle m = (s.spindle m).halt) ∧ t.waiters = [] ∧ t.mem = s.mem

/-- The stop record of a spindle that meets `code` at its instruction. -/
def stopRecOf (s : State) (n : Nat) (code : W16) : StopRec :=
  let x := s.spindle n
  { StopRec.none with code := code, station := x.station, spindle := n, sliver := x.sliver, pc := x.pc }

/-- Event `b` of a page is pending (R629). -/
def raised (t : State) (page b : Nat) : Prop := bit (t.page page).pend.toNat b = true

/-- The instruction has retired with spindle `n` as `x`, and elsewhere only notes have changed. -/
def retiresNoting (s t : State) (n : Nat) (x : Spindle) : Prop :=
  t.spindle n = { x with pc := ((s.spindle n).pc + 8) % 2 ^ 32, run := .run, wait := .none }
    ∧ (∀ m, m ≠ n → t.spindle m = s.spindle m) ∧ ({ s with sp := t.sp } : State).notesOnly t

/-- A good ring frame arrives at a module that heads nothing, on a running ring and at the position it expects (R520–R525). -/
def atWorker (s : State) (f : TFrame) : Prop :=
  s.power.pg = true ∧ s.mgr.plan = none ∧ s.onRing = true ∧ f.trunk = false ∧ f.good = true
    ∧ s.trd.tpos = (f.pos.toNat + 2 ^ 64 - 1) % 2 ^ 64

/-! Packets -/

/-- Exactly one more packet has left, of this type and to this address. -/
def sends (s t : State) (typ : Nat) (addr : BitVec 128) : Prop :=
  ∃ q : Sent, t.mrn.out = s.mrn.out ++ [q] ∧ q.typ = typ ∧ q.addr = addr

/-- The newest message of session `i` is `m`: it has left, or waits for the window or for the session to open. -/
def newest (t : State) (i : Nat) (m : Msg) : Prop :=
  (t.session i).queued.getLast? = some m
    ∨ ((t.session i).queued = [] ∧ ((t.session i).out.getLast?.map (·.msg)) = some m)

/-- A session that can tag what it must tag: it is no CONTROL session, or is not open yet, or has its key (R475; log entry 127). -/
def hasKey (x : Session) : Prop := x.muted = false

/-- A packet that is no HELLO passes steps 1 to 4 of the admission on slot `i` (R476), in a module whose sessions follow the default table
(R488). -/
def onSlot (s : State) (p : Packet) (typ i : Nat) : Prop :=
  let x := s.session i
  s.mrn.table = none ∧ s.takesPackets p typ = true ∧ p.malformed typ = false ∧ typ ≠ 0x0001 ∧ s.slotOf (portPlane p.port) p.session = some i
    ∧ typeFits typ x.kind = true ∧ (x.kind ≠ 0 → p.flags.getLsbD 2 = false) ∧ x.tagOk p typ = true

/-- No session comes to the end of its sequence numbers within its next 65,536 messages: at the end E10 would answer, and its event would be
reported (R491). -/
def numbersLeft (s : State) : Prop := ∀ i, (s.session i).txNext + 2 ^ 16 ≤ 2 ^ 48 - 258

/-- A sequenced packet arrives next in order on an OPEN session that owes no acknowledgement yet, carries none itself and asks for none,
while the module is not paused and no session is near the end of its sequence numbers (R476, R477, R479, R491). -/
def inSequence (s : State) (p : Packet) (typ i : Nat) : Prop :=
  let x := s.session i
  onSlot s p typ i ∧ 0x0100 ≤ typ ∧ x.state = .OP ∧ p.epoch = x.epoch ∧ p.seq = x.rxAck + 1 ∧ x.held = [] ∧ x.ready = []
    ∧ x.unackedRx < 15 ∧ p.flags.getLsbD 0 = false ∧ p.flags.getLsbD 3 = false ∧ p.ce = false ∧ s.paused = false
    ∧ badChunk ⟨typ, p.cmd, p.payload⟩ = false ∧ numbersLeft s

/-- The state in which a message that arrives in sequence is handed to its user: counted, recorded, and taken into the receive
sequence. -/
def inbox (s : State) (p : Packet) (typ i : Nat) : State :=
  let x := s.session i
  ((s.count (pgMRN (planeEngine (portPlane p.port))) 1 1).pktRecord i 0x0111 x.id p.seq typ p.epoch (p.flags.getLsbD 1) p.port).setSession i
    { x with rxAck := x.rxAck + 1, unackedRx := x.unackedRx + 1, deadRunning := false }

/-- What follows the delivery: an acknowledgement at the 16th message that owes one, and the end of a session that drains. -/
def afterDelivery (t : State) (i id : Nat) : State :=
  let y := t.session i
  let u := if y.id == id && y.carries && decide (16 ≤ y.unackedRx) then t.ackNow i else t
  if (u.session i).id == id then u.drainEnd i else u

/-- A CONTROL command arrives in sequence, for the first time, with room in the cache and its origin's floor below it, and passes its
envelope (R494–R497). -/
def firstCopy (s : State) (p : Packet) (typ i : Nat) : Prop :=
  let x := s.session i
  inSequence s p typ i ∧ x.kind = 0 ∧ x.due = [] ∧ s.sessionById x.id = some i ∧ s.mrn.cache.find? (fun e => e.cmd == p.cmd) = none
    ∧ s.mrn.cache.length < cacheSize ∧ s.mrn.admission = [] ∧ s.job.attests = [] ∧ s.expired p.cmd = false
    ∧ ((s.mrn.origins.find (cmdOrigin p.cmd)).isSome = true ∨ s.mrn.origins.length < 64)
    ∧ s.envelopeError typ p.payload = none

/-- The state in which that command runs: it is in the cache as RUNNING, its origin is known, and its session is owed the RESULT. -/
def running (s : State) (p : Packet) (typ i : Nat) : State :=
  let s := inbox s p typ i
  let o := cmdOrigin p.cmd
  let s : State := { s with mrn := { s.mrn with
    cache := s.mrn.cache ++ [⟨p.cmd, cmdDigest typ p.payload, true, 0, []⟩],
    origins := if (s.mrn.origins.find o).isSome then s.mrn.origins else s.mrn.origins.put o 0 } }
  s.setSession i { s.session i with due := [⟨p.cmd, none⟩] }

/-- The command has completed with a status and data: its cache entry says so, and the RESULT is the session's newest message. -/
def resulted (t : State) (i : Nat) (cmd : W64) (st : W16) (data : Bytes) : Prop :=
  (∃ e ∈ t.mrn.cache, e.cmd = cmd ∧ e.running = false ∧ e.status = st ∧ e.result = data.take 512)
    ∧ newest t i ⟨0x0110, cmd, leBytes 2 st.toNat ++ zeros 2 ++ data.take 512⟩

/-- The command that a row's packet carries, with its message type (R493), for the sequenced rows whose packet says all. -/
def sequencedRow : Instr → Option (Packet × Nat)
  | .identify p => some (p, 0x0100) | .regRead p => some (p, 0x0101) | .regWrite p => some (p, 0x0102)
  | .subscribe p => some (p, 0x0103) | .jobUnload p => some (p, 0x0105) | .bulkCancel p => some (p, 0x0107)
  | .dump p => some (p, 0x0108) | .attest p => some (p, 0x0109) | .roster p => some (p, 0x0200) | .heartbeat p => some (p, 0x0201)
  | .failed p => some (p, 0x0202) | .takeover p => some (p, 0x0203) | .status p => some (p, 0x0204)
  | .bulkData p => some (p, 0x0300) | .bulkJournal p => some (p, 0x0301) | .bulkEnd p => some (p, 0x0302)
  | .bulkAbort p => some (p, 0x0303) | .tileSeg p => some (p, 0x0400) | .tileResend p => some (p, 0x0401)
  | .grant p => some (p, 0x0402) | .contribRetry p => some (p, 0x0403) | .gatherReq (.received p) => some (p, 0x0404)
  | .versionGone p => some (p, 0x0405) | .abort p => some (p, 0x0406) | .count p => some (p, 0x0407)
  | .bulkCreateSnapshot p => if leAt p.payload 9 1 = 1 then some (p, 0x0106) else none
  | .bulkCreateImage p => if leAt p.payload 9 1 = 2 then some (p, 0x0106) else none
  | .bulkCreateJobBundle p => if leAt p.payload 9 1 = 3 then some (p, 0x0106) else none
  | .bulkCreateRestore p => if leAt p.payload 9 1 = 4 then some (p, 0x0106) else none
  | .bulkCreateDump p => if leAt p.payload 9 1 = 5 then some (p, 0x0106) else none
  | .bulkCreateTrace p => if leAt p.payload 9 1 = 6 then some (p, 0x0106) else none
  | _ => none

/-- Operation `id` stands with what `P` says. -/
def opIs (t : State) (id : W64) (P : BulkOp → Prop) : Prop := ∃ o, t.findOp id = some o ∧ P o

end Sys2Proof.Claims

open Sys2Proof Sys2Proof.Machine Sys2Proof.Claims



/-! ### Spindle instructions: registers, local and remote memory -/

/-- The scalar instructions that write at most one register (SCALAR_ALU, ALU_IMMEDIATE, LI, MOVS, JAL, JR, CONDITIONAL_BRANCH)
complete with the value and the next PC that R290 gives them, and change nothing but their spindle and its page. That JR and branches keep the
low 32 bits of their target is the model's reading (log entry 12). -/
def Sys2Proof.Claims.ScalarRegisterRows : Prop :=
  ∀ (n : Nat) (s : State),
    let x := s.spindle n
    (∀ op d a b, issues s n (.alu op d a b) →
      completes (.scalarAlu n) s fun t => retires s t n (x.setS d (aluEval op (x.s a) (x.s b))) (x.pc + 8)) ∧
    (∀ op d a imm, issues s n (.aluImm op d a imm) →
      completes (.aluImmediate n) s fun t => retires s t n (x.setS d (aluEval op (x.s a) (imm.signExtend 64))) (x.pc + 8)) ∧
    (∀ d imm, issues s n (.li d imm) →
      completes (.li n) s fun t => retires s t n (x.setS d (imm.signExtend 64)) (x.pc + 8)) ∧
    (∀ d (sr : BitVec 5), issues s n (.movs d sr) →
      completes (.movs n) s fun t =>
        retires s t n ((if sr = 4 then { x with xstat := x.xstat &&& 3 } else x).setS d (s.special n sr.toNat)) (x.pc + 8)) ∧
    (∀ d (imm : BitVec 38), issues s n (.jal d imm) →
      completes (.jal n) s fun t =>
        retires s t n (x.setS d (BitVec.ofNat 64 (x.pc + 8))) (unsignedOf 64 ((x.pc : Int) + 8 * imm.toInt))) ∧
    (∀ d a, issues s n (.jr d a) →
      completes (.jr n) s fun t => retires s t n (x.setS d (BitVec.ofNat 64 (x.pc + 8))) (x.s a).toNat) ∧
    (∀ c a b (imm : BitVec 28), issues s n (.branch c a b imm) →
      completes (.conditionalBranch n) s fun t =>
        retires s t n x (if condHolds c (x.s a) (x.s b) then unsignedOf 64 ((x.pc : Int) + 8 * imm.toInt) else x.pc + 8))

/-- The vector and mask instructions complete: each writes the lanes or the mask bits that its predicate selects, or one
scalar register, and changes nothing but its spindle and its page (R293–R298). The model's readings: MPOP and VEXT ignore the predicate (log
entry 14), and which neighbour an inexact VDIV or VSQRT gives is free (17). -/
def Obligations.VectorRows : Prop :=
  ∀ (n : Nat) (s : State),
    let x := s.spindle n
    let lanes (d : Reg) (p : Pred) (new : List W32) := x.setV d (mergeLanes (x.lanes p) (x.v d) new)
    let bits (d : MReg) (p : Pred) (new : W32) := x.setM d (mergeMask (x.lanes p) (x.m d) new)
    let lane (r : Reg) (l : Nat) := (x.v r).getD l 0
    (∀ op d a b c p, issues s n (.vf op d a b c p) →
      completes (.vectorF32 n) s fun t =>
        retires s t n
          (if op.isCmp then bits (BitVec.ofNat 3 d.toNat) p (maskOf fun l => vfTest op (lane a l) (lane b l))
           else lanes d p (lanewise (vfLane op) (x.v a) (x.v b) (x.v c))) (x.pc + 8)) ∧
    (∀ d a p, issues s n (.vrsum d a p) →
      completes (.vrsumF32 n) s fun t =>
        retires s t n (x.setS d (BitVec.ofNat 64 (f32SumAll ((List.range 32).filterMap fun i =>
          if (x.lanes p).getLsbD i then some (lane a i) else none)).toNat)) (x.pc + 8)) ∧
    (∀ op d a b p, issues s n (.vi op d a b p) →
      completes (.vectorInteger n) s fun t =>
        retires s t n (lanes d p (lanewise (fun u v _ => aluEval op u v) (x.v a) (x.v b) [])) (x.pc + 8)) ∧
    (∀ op d a b p, issues s n (.viCmp op d a b p) →
      completes (.vectorInteger n) s fun t =>
        retires s t n (bits d p (maskOf fun l => viCmpHolds op (lane a l) (lane b l))) (x.pc + 8)) ∧
    (∀ op d a b p, issues s n (.mask op d a b p) →
      completes (.maskOperations n) s fun t => retires s t n (bits d p (op.eval (x.m a) (x.m b))) (x.pc + 8)) ∧
    (∀ d a p, issues s n (.mpop d a p) →
      completes (.mpop n) s fun t => retires s t n (x.setS d (BitVec.ofNat 64 (popCount (x.m a)))) (x.pc + 8)) ∧
    (∀ d a p, issues s n (.vbcast d a p) →
      completes (.vbcast n) s fun t =>
        retires s t n (lanes d p (List.replicate 32 ((x.s a).truncate 32))) (x.pc + 8)) ∧
    (∀ d a b p, issues s n (.vext d a b p) →
      completes (.vext n) s fun t =>
        retires s t n (x.setS d ((lane a ((x.s b).toNat % 32)).zeroExtend 64)) (x.pc + 8)) ∧
    (∀ d a b p, issues s n (.vperm d a b p) →
      completes (.vperm n) s fun t =>
        retires s t n (lanes d p ((List.range 32).map fun l => lane a ((lane b l).toNat % 32))) (x.pc + 8)) ∧
    (∀ d a b c p, issues s n (.vsel d a b c p) →
      completes (.vsel n) s fun t =>
        retires s t n (lanes d p ((List.range 32).map fun l => if (x.m c).getLsbD l then lane a l else lane b l)) (x.pc + 8))

/-- The curves, their derivatives and the sampling noise complete lane by lane (R267, R297); the sign of an exactly zero curve
result is the free value `Config.zeroCurveNeg`. That D.LOG at zero answers NaN is the model's reading (log entry 15). -/
def Sys2Proof.Claims.CurveRows : Prop :=
  ∀ (n : Nat) (s : State) (d a : Reg) (p : Pred),
    let x := s.spindle n
    let lanes (new : List W32) := x.setV d (mergeLanes (x.lanes p) (x.v d) new)
    let run (c : Curve) (deriv : Bool) := (x.v a).map fun w => curveEval (Config.zeroCurveNeg c.fn deriv w) c deriv w
    (∀ c, issues s n (.curve c false d a p) →
      completes (.curve n) s fun t => retires s t n (lanes (run c false)) (x.pc + 8)) ∧
    (∀ c, issues s n (.curve c true d a p) →
      completes (.curveD n) s fun t => retires s t n (lanes (run c true)) (x.pc + 8)) ∧
    (issues s n (.gumbel d a p) →
      completes (.curveGumbel n) s fun t => retires s t n (lanes ((x.v a).map gumbelNoise)) (x.pc + 8))

/-- Scalar instructions, branches, curves, sampling noise: result, next PC, frame (readings of the model: log 12, 15): `Claims.ScalarRegisterRows`, `Claims.CurveRows`. -/
def Obligations.ScalarAndCurveRows : Prop := Claims.ScalarRegisterRows ∧ Claims.CurveRows

/-- A scalar register reads what was written to it, every other register reads as before, and s0 reads zero whatever is written
to it (R276), in both modes; the register tables keep their canonical form. -/
def Obligations.ScalarRegistersReadBack : Prop :=
  ∀ (x : Spindle) (d r : Reg) (v : W64), x.regsOk = true →
    (x.setS d v).regsOk = true ∧
    (x.setS d v).s r = (if r = 0 then 0 else if r = d then v else x.s r)

/-- Local loads complete with the bytes that lie at the address, extended as their kind says, and change no memory (R290, R291,
R293). -/
def Sys2Proof.Claims.LocalLoadRows : Prop :=
  ∀ (n : Nat) (s : State) (d a : Reg) (p : Nat),
    let x := s.spindle n
    (∀ k (imm : BitVec 38), issues s n (.ld k d a imm) → localAddr (x.s a) imm.toInt k.size = .ok p →
      completes (.ld n) s fun t => retires s t n (x.setS d (k.extend (leNat (s.localRead n p k.size)))) (x.pc + 8)) ∧
    (∀ imm : BitVec 28, issues s n (.vld d a imm) → localAddr (x.s a) imm.toInt 128 = .ok p →
      completes (.vld n) s fun t => retires s t n (x.setV d (lanesOfBytes (s.localRead n p 128))) (x.pc + 8))

/-- Local stores and atomics into CORE banks complete: the bytes stored read back, every other byte of memory is as it was, an
atomic's register holds the old value, and nothing else changes but the spindle and its page (R290, R291, R293, R313, R317). -/
def Sys2Proof.Claims.LocalStoreRows : Prop :=
  ∀ (n : Nat) (s : State) (a : Reg) (p : Nat), s.memOk = true →
    let x := s.spindle n
    (∀ k d (imm : BitVec 38), issues s n (.st k d a imm) → localAddr (x.s a) imm.toInt k.size = .ok p → x.owns .core p k.size = true →
      completes (.st n) s fun t => retiresStoring s t n x (x.pc + 8) (localBase n + p) (leBytes k.size (x.s d).toNat)) ∧
    (∀ d (imm : BitVec 28), issues s n (.vst d a imm) → localAddr (x.s a) imm.toInt 128 = .ok p →
        x.owns .core p (bytesOfLanes (x.v d)).length = true →
      completes (.vst n) s fun t => retiresStoring s t n x (x.pc + 8) (localBase n + p) (bytesOfLanes (x.v d))) ∧
    (∀ op d b, issues s n (.atom op d a b) → localAddr (x.s a) 0 op.size = .ok p → x.owns .core p op.size = true →
      let r := op.apply (leNat (s.localRead n p op.size)) (x.s b)
      completes (.atom n) s fun t => retiresStoring s t n (x.setS d r.1) (x.pc + 8) (localBase n + p) (leBytes op.size r.2))

/-- A local address answers 0x0305 exactly where the register or the sum lies outside the 18-bit local memory, 0x0306 where it lies inside
and off its alignment, and else itself; each local access stops its station with that answer, and a store or atomic into a bank that is not
the core's with 0x0304 (R291, R293, R313, R314). -/
def Sys2Proof.Claims.LocalAccessStops : Prop :=
  ∀ (n : Nat) (s : State) (a b d : Reg) (code : W16),
    let x := s.spindle n
    let stops (c : Instr) (code : W16) : Prop := exec c s = .next (s.stopSp n code)
    (∀ k (imm : BitVec 38), issues s n (.ld k d a imm) → localAddr (x.s a) imm.toInt k.size = .error code → stops (.ld n) code) ∧
    (∀ k (imm : BitVec 38), issues s n (.st k d a imm) →
      (localAddr (x.s a) imm.toInt k.size = .error code → stops (.st n) code) ∧
      (∀ p, localAddr (x.s a) imm.toInt k.size = .ok p → x.owns .core p k.size = false → stops (.st n) 0x0304)) ∧
    (∀ imm : BitVec 28, issues s n (.vld d a imm) → localAddr (x.s a) imm.toInt 128 = .error code → stops (.vld n) code) ∧
    (∀ imm : BitVec 28, issues s n (.vst d a imm) →
      (localAddr (x.s a) imm.toInt 128 = .error code → stops (.vst n) code) ∧
      (∀ p, localAddr (x.s a) imm.toInt 128 = .ok p → x.owns .core p (bytesOfLanes (x.v d)).length = false → stops (.vst n) 0x0304)) ∧
    (∀ op, issues s n (.atom op d a b) →
      (localAddr (x.s a) 0 op.size = .error code → stops (.atom n) code) ∧
      (∀ p, localAddr (x.s a) 0 op.size = .ok p → x.owns .core p op.size = false → stops (.atom n) 0x0304)) ∧
    (∀ (v : W64) (off : Int) (align : Nat), 0 < align →
      let sum := unsignedOf 64 ((v.toNat : Int) + off)
      (localAddr v off align = .error code ↔
        (code = 0x0305 ∧ (2 ^ 18 ≤ v.toNat ∨ 2 ^ 18 ≤ sum)) ∨
        (code = 0x0306 ∧ v.toNat < 2 ^ 18 ∧ sum < 2 ^ 18 ∧ sum % align ≠ 0)) ∧
      (∀ p, localAddr v off align = .ok p ↔ p = sum ∧ v.toNat < 2 ^ 18 ∧ sum < 2 ^ 18 ∧ sum % align = 0))

/-- A remote access stops its station at an address in no range or that is not backed (0x0302), in a range that it may not reach or, for a
write, in a code region (0x0305), and off its alignment (0x0306), in that order; where the banks of a local memory refuse it, it stops with
0x0304, and a foreign spindle's page raises BANK_REFUSED (R291, R292, R313, R314). -/
def Sys2Proof.Claims.RemoteAccessStops : Prop :=
  ∀ (n : Nat) (same : Bool) (s : State) (a b d : Reg) (imm : BitVec 28),
    let x := s.spindle n
    let stops (c : Instr) (code : W16) : Prop := exec c s = .next (s.stopSp n code)
    let refused (c : Instr) (m : Nat) : Prop := if m = n then stops c 0x0304 else exec c s = .next (s.refuseForeign n m)
    (∀ k : LdKind, issues s n (.ldD k d a imm) →
      (∀ code, s.remoteAddr (x.s a) imm k.size false = .error code → stops (.ldD n same) code) ∧
      (∀ p m, s.remoteAddr (x.s a) imm k.size false = .ok p → regionOf p = .locals m → m ≠ n →
        (s.spindle m).foreignRead .remote (p - localBase m) k.size = false → refused (.ldD n same) m)) ∧
    (∀ k : StKind, issues s n (.stD k a b imm) →
      (∀ code, s.remoteAddr (x.s a) imm k.size true = .error code → stops (.stD n same) code) ∧
      (∀ p m, s.remoteAddr (x.s a) imm k.size true = .ok p → regionOf p = .locals m →
        (if m = n then x.ownWrite .remote (p - localBase m) k.size = false
         else (s.spindle m).foreignWrite .remote (p - localBase m) k.size = false) → refused (.stD n same) m)) ∧
    (∀ op : AtomOp, issues s n (.atomD op d a b imm) →
      (∀ code, s.remoteAddr (x.s a) imm op.size true = .error code → stops (.atomD n same) code) ∧
      (∀ p m, s.remoteAddr (x.s a) imm op.size true = .ok p → regionOf p = .locals m →
        (if m = n then x.owns .remote (p - localBase m) op.size = false
         else (s.spindle m).foreignWrite .remote (p - localBase m) op.size = false) → refused (.atomD n same) m)) ∧
    (∀ (v : W64) (size : Nat) (write : Bool),
      let p := unsignedOf 64 ((v.toNat : Int) + imm.toInt)
      let r := s.remoteAddr v imm size write
      let code (k : Nat) : Bool := write && s.codeAt k (p - poolBase k) size
      (regionOf p = .unlisted → r = .error 0x0302) ∧
      (∀ k, regionOf p = .locals k ∨ (regionOf p = .pool k ∧ code k = false) →
        r = if s.backed p = false then .error 0x0302 else if p % size ≠ 0 then .error 0x0306 else .ok p) ∧
      (∀ k, regionOf p = .pool k → code k = true → r = .error 0x0305) ∧
      (regionOf p ≠ .unlisted → (∀ k, regionOf p ≠ .locals k ∧ regionOf p ≠ .pool k) → r = .error 0x0305))

/-- Remote loads, stores and atomics on a skein pool below its exchange bank complete with the bytes at the device address; a store
or atomic changes exactly those bytes (R292, R317). -/
def Sys2Proof.Claims.RemotePoolRows : Prop :=
  ∀ (n k p : Nat) (same : Bool) (s : State), s.memOk = true → regionOf p = .pool k → p < exchangeBase k →
    let x := s.spindle n
    (∀ ld d a (imm : BitVec 28), issues s n (.ldD ld d a imm) → s.remoteAddr (x.s a) imm ld.size false = .ok p →
      completes (.ldD n same) s fun t => retires s t n (x.setS d (ld.extend (leNat (s.load p ld.size)))) (x.pc + 8)) ∧
    (∀ st a b (imm : BitVec 28), issues s n (.stD st a b imm) → s.remoteAddr (x.s a) imm st.size true = .ok p →
      completes (.stD n same) s fun t => retiresStoring s t n x (x.pc + 8) p (leBytes st.size (x.s b).toNat)) ∧
    (∀ op d a b (imm : BitVec 28), issues s n (.atomD op d a b imm) → s.remoteAddr (x.s a) imm op.size true = .ok p →
      let r := op.apply (leNat (s.load p op.size)) (x.s b)
      completes (.atomD n same) s fun t => retiresStoring s t n (x.setS d r.1) (x.pc + 8) p (leBytes op.size r.2))

/-- Remote loads, stores and atomics on a spindle's local memory complete where its banks admit them: the bytes lie at the device address,
and only marks of verified images may go there (R292, R313, R317). -/
def Sys2Proof.Claims.RemoteLocalRows : Prop :=
  ∀ (n m p : Nat) (same : Bool) (s : State), s.memOk = true → regionOf p = .locals m →
    let x := s.spindle n
    let y := s.spindle m
    let stores (t : State) (x' : Spindle) (bs : Bytes) : Prop :=
      t.spindle n = { x' with pc := (x.pc + 8) % 2 ^ 32, run := .run, wait := .none, verified := (t.spindle n).verified }
        ∧ (∀ j, j ≠ n → t.spindle j = { s.spindle j with verified := (t.spindle j).verified })
        ∧ (∀ j, j ≠ m → (t.spindle j).verified = (s.spindle j).verified) ∧ t.page (pgSPD n) = countedPage s n
        ∧ (∀ q, q ≠ pgSPD n → t.page q = s.page q)
        ∧ t = { s with sp := t.sp, pages := t.pages, mem := t.mem, bad := t.bad, soft := t.soft, smp := t.smp }
        ∧ s.requestsKept t ∧ wrote s t p bs
    (∀ ld d a (imm : BitVec 28), issues s n (.ldD ld d a imm) → s.remoteAddr (x.s a) imm ld.size false = .ok p →
      m = n ∨ y.foreignRead .remote (p - localBase m) ld.size = true →
      completes (.ldD n same) s fun t => retires s t n (x.setS d (ld.extend (leNat (s.load p ld.size)))) (x.pc + 8)) ∧
    (∀ st a b (imm : BitVec 28), issues s n (.stD st a b imm) → s.remoteAddr (x.s a) imm st.size true = .ok p →
      (if m = n then y.ownWrite .remote (p - localBase m) st.size = true else y.foreignWrite .remote (p - localBase m) st.size = true) →
      completes (.stD n same) s fun t => stores t x (leBytes st.size (x.s b).toNat)) ∧
    (∀ op d a b (imm : BitVec 28), issues s n (.atomD op d a b imm) → s.remoteAddr (x.s a) imm op.size true = .ok p →
      (if m = n then y.owns .remote (p - localBase m) op.size = true else y.foreignWrite .remote (p - localBase m) op.size = true) →
      let r := op.apply (leNat (s.load p op.size)) (x.s b)
      completes (.atomD n same) s fun t => stores t (x.setS d r.1) (leBytes op.size r.2))

/-- An access to an exchange bank completes; two in one cycle that share a word collide (R318–R321). A load that meets the write of port 0
gets the free value `Config.torn`, and so does a load of port 0 that the write of port 1 meets; BUSY and TORN are seen as the table says,
and a store lands whatever it meets. A torn read of a streaming engine is made again and delivers what the bank holds then. -/
def Sys2Proof.Claims.ExchangeRows : Prop :=
  ∀ (n k p : Nat) (same : Bool) (s : State), s.memOk = true → regionOf p = .pool k → exchangeBase k ≤ p →
    let x := s.spindle n
    let acc (len : Nat) (w : Bool) (dest : XbDest) : XbAcc := ⟨n, false, xbPort n k, p / 8, wordsOf p len, w, false, dest⟩
    (∀ ld d a (imm : BitVec 28), issues s n (.ldD ld d a imm) → s.remoteAddr (x.s a) imm ld.size false = .ok p →
      let cur := acc ld.size false (.reg ld d)
      let c := xbCollide (s.skein k).xbLast same cur
      let v := if c.torn then (Config.torn s.free).toNat else leNat (s.load p ld.size)
      completes (.ldD n same) s fun t =>
        t.spindle n = { ({ x with xstat := xstatAfter x.xstat c.busy c.torn } : Spindle).setS d (ld.extend v) with
          pc := (x.pc + 8) % 2 ^ 32, run := .run, wait := .none }
        ∧ (∀ m, m ≠ n → t.spindle m = s.spindle m) ∧ t.mem = s.mem ∧ (t.skein k).xbLast = some cur
        ∧ t.free = s.free + b2n c.torn) ∧
    (∀ st a b (imm : BitVec 28), issues s n (.stD st a b imm) → s.remoteAddr (x.s a) imm st.size true = .ok p →
      let cur := acc st.size true .none
      let c := xbCollide (s.skein k).xbLast same cur
      c.prevTorn = false →
      completes (.stD n same) s fun t =>
        t.spindle n = { x with xstat := xstatAfter x.xstat c.busy false, pc := (x.pc + 8) % 2 ^ 32, run := .run, wait := .none }
        ∧ (∀ m, m ≠ n → t.spindle m = s.spindle m) ∧ wrote s t p (leBytes st.size (x.s b).toNat)
        ∧ (t.skein k).xbLast = some cur) ∧
    (∀ op d a b (imm : BitVec 28), issues s n (.atomD op d a b imm) → s.remoteAddr (x.s a) imm op.size true = .ok p →
      let r := op.apply (leNat (s.load p op.size)) (x.s b)
      let cur : XbAcc := { acc op.size true .none with atomic := true }
      let c := xbCollide (s.skein k).xbLast same cur
      completes (.atomD n same) s fun t =>
        t.spindle n = { ({ x with xstat := xstatAfter x.xstat c.busy false } : Spindle).setS d r.1 with
          pc := (x.pc + 8) % 2 ^ 32, run := .run, wait := .none }
        ∧ (∀ m, m ≠ n → t.spindle m = s.spindle m) ∧ wrote s t p (leBytes op.size r.2) ∧ (t.skein k).xbLast = some cur) ∧
    (∀ (q : XbAcc) d a (imm : BitVec 28) st (kind : LdKind) r, issues s n (.stD st a r imm) → s.remoteAddr (x.s a) imm st.size true = .ok p →
      (s.skein k).xbLast = some q → q.port = 0 → xbPort n k = 1 → q.write = false → q.atomic = false → q.dest = .reg kind d →
      (q.shared (acc st.size true .none)).2 ≠ 0 → q.spindle ≠ n →
      completes (.stD n true) s fun t =>
        t.spindle q.spindle = { (s.spindle q.spindle).setS d (kind.extend (Config.torn s.free).toNat) with
          xstat := xstatAfter (s.spindle q.spindle).xstat false true }
        ∧ wrote s t p (leBytes st.size (x.s r).toNat) ∧ t.free = s.free + 1) ∧
    (∀ (q : XbAcc) at_ a (imm : BitVec 28) st r, issues s n (.stD st a r imm) → s.remoteAddr (x.s a) imm st.size true = .ok p →
      (s.skein k).xbLast = some q → q.port = 0 → xbPort n k = 1 → q.write = false → q.atomic = false → q.dest = .image at_ →
      q.spindle < 4608 → at_ + 8 * q.words ≤ 2 ^ 18 →
      let w := q.shared (acc st.size true .none)
      w.2 ≠ 0 →
      completes (.stD n true) s fun t =>
        t.localRead q.spindle (at_ + 8 * (w.1 - q.first)) (8 * w.2) = t.load (8 * w.1) (8 * w.2)
        ∧ t.load p st.size = leBytes st.size (x.s r).toNat ∧ t.free = s.free)

/-- Loads, stores and atomics: value, stored bytes, frame, and where a local access stops: `Claims.LocalLoadRows`, `Claims.LocalStoreRows`, `Claims.LocalAccessStops`, `Claims.RemoteAccessStops`, `Claims.RemotePoolRows`, `Claims.RemoteLocalRows`, `Claims.ExchangeRows`. -/
def Obligations.MemoryAccessRows : Prop := Claims.LocalLoadRows ∧ Claims.LocalStoreRows ∧ Claims.LocalAccessStops ∧ Claims.RemoteAccessStops ∧ Claims.RemotePoolRows ∧ Claims.RemoteLocalRows ∧ Claims.ExchangeRows



/-! ### The arrays, the planes and tile conversion -/

/-- A weight load completes: with the shadow block free, room in the input buffer and a tile that passes its checks on the row's axis, that half of the tile
becomes the shadow block of the array and the load joins the input buffer, and nothing else changes but marks of verified images (R34, R91,
R95, R143, R145, R283). -/
def Sys2Proof.Claims.WeightLoadRows : Prop :=
  ∀ (n : Nat) (s : State) (f : Fmt) (a : Reg) (h : Bool) (p : Nat) (tile : Tile),
    let x := s.spindle n
    localAddr (x.s a) 0 64 = .ok p →
    (issues s n (.fmmLdw f a h) → x.fwd.shadow = none → x.buffered .fwd < 4 →
        checkTile (s.localImage n p) (acceptArray f 0) = .ok tile →
      completes (.fmmLdw n) s fun t =>
        retires s t n { x.addLoad false with
          fwd := { x.fwd with shadow := some (weightBlock tile (b2n h) false) }, verified := (t.spindle n).verified } (x.pc + 8)) ∧
    (∀ red, issues s n (.bmmLdb f a h red) → x.bwd.shadow = none → x.buffered .bwd < 4 →
        checkTile (s.localImage n p) (acceptArray f (b2n red)) = .ok tile →
      completes (.bmmLdb n) s fun t =>
        retires s t n { x.addLoad true with
          bwd := { x.bwd with shadow := some (weightBlock tile (b2n h) true) }, verified := (t.spindle n).verified } (x.pc + 8))

/-- A pass completes: on an OPEN plane with room in the input buffer and under the pass limit it takes the tile's 32 blocks against
the shadow block (SWAP, which then is resident) or the resident one, joins the buffer with its exact terms, and counts one pass
(R92–R105, R111, R143–R149). -/
def Sys2Proof.Claims.ArrayPassRows : Prop :=
  ∀ (n : Nat) (s : State) (f : Fmt) (a : Reg) (pl : Plane) (xh swap : Bool) (p : Nat) (tile : Tile) (w : WBlock),
    let x := s.spindle n
    localAddr (x.s a) 0 64 = .ok p → (x.plane pl).isOpen = true → (x.plane pl).passes < 2 ^ 19 →
    (issues s n (.fmm f a pl xh swap) → x.buffered .fwd < 4 → checkTile (s.localImage n p) (acceptArray f 0) = .ok tile →
        (if swap then x.fwd.shadow else x.fwd.resident) = some w →
      completes (.fmm n) s fun t =>
        let y := if swap then { x with fwd := ⟨none, some w⟩ } else x
        retires s t n { y.addPass .fwd pl 1 (passTerms (leftBlock tile (b2n xh) w.half false) w false) with
                        verified := (t.spindle n).verified } (x.pc + 8)) ∧
    (∀ red, issues s n (.bmm f a pl xh swap red) → x.buffered .bwd < 4 →
        checkTile (s.localImage n p) (acceptArray f (b2n red)) = .ok tile →
        (if swap then x.bwd.shadow else x.bwd.resident) = some w →
      completes (.bmm n) s fun t =>
        let y := if swap then { x with bwd := ⟨none, some w⟩ } else x
        retires s t n { y.addPass .bwd pl 1 (passTerms (leftBlock tile (b2n xh) w.half true) w true) with
                        verified := (t.spindle n).verified } (x.pc + 8))

/-- Weight loads and passes of the forward and backward arrays: `Claims.WeightLoadRows`, `Claims.ArrayPassRows`. -/
def Obligations.ArrayRows : Prop := Claims.WeightLoadRows ∧ Claims.ArrayPassRows

/-- ARRAY_PASS_RETIRE takes the oldest entry out of the buffer and adds a pass's terms to its plane, and ESC.TERM and ACC.ADDX add exact
terms of their own: a list of factor pairs that passes its checks, and one half of a transfer tile, after what was issued to the plane before
(R38, R101, R109, R111, R135, R304; that the waiting work retires with the issue is the model's choice, assumption 133). -/
def Sys2Proof.Claims.ExactTermRows : Prop :=
  ∀ (n : Nat) (s : State),
    let x := s.spindle n
    (∀ p pl rest, x.passes = p :: rest → p.plane = some pl → s.jobLive = true → s.paused = false →
      exec (.arrayPassRetire n) s = .next (s.setSpindle n
        (Spindle.setPlane { x with passes := rest } pl ((x.plane pl).addTerms p.terms)))) ∧
    (∀ p rest, x.passes = p :: rest → p.plane = none → s.jobLive = true → s.paused = false →
      exec (.arrayPassRetire n) s = .next (s.setSpindle n { x with passes := rest })) ∧
    (∀ a b pl at_, issues s n (.escTerm a b pl) → (x.plane pl).isOpen = true → localAddr (x.s a) 0 1 = .ok at_ →
        1 ≤ (x.s b).toNat → (x.s b).toNat ≤ 1024 → at_ + 16 * (x.s b).toNat ≤ 2 ^ 18 →
        escListBad (s.localRead n at_ (16 * (x.s b).toNat)) (x.s b).toNat 0 = none →
        (x.plane pl).passes + ((x.s b).toNat + 31) / 32 ≤ 2 ^ 19 →
      completes (.escTerm n) s fun t =>
        retires s t n (x.addPass .esc pl (((x.s b).toNat + 31) / 32)
          (escListTerms (s.localRead n at_ (16 * (x.s b).toNat)) (x.s b).toNat)) (x.pc + 8)) ∧
    (∀ a pl half at_ d hs h, issues s n (.accAddx a pl half) → (x.plane pl).isOpen = true → localAddr (x.s a) 0 64 = .ok at_ →
        checkXf (s.localImage n at_) (some (b2n half)) = .ok (d, hs) → hs.getD (b2n half) none = some h →
        (x.plane pl).passes + h.passes + 1 ≤ 2 ^ 19 →
      let y := x.drainPlane pl x.passes.length
      completes (.accAddx n) s fun t =>
        let q := (y.plane pl).addTerms (h.acc.zipIdx.filterMap fun (v, i) =>
          if v == 0 then none else some ⟨i / 64, i % 64, ⟨v, h.anchor - 160⟩⟩)
        retires s t n { y.setPlane pl { q with drops := sat32 (q.drops + h.drops), passes := q.passes + h.passes + 1 } with
                        verified := (t.spindle n).verified } (x.pc + 8))

/-- Opening and clearing a plane: ACC.OPEN on a FREE plane takes the anchor of the tracker's current epoch, or with ASRC the low 16
bits of register c, and binds the plane to the reference; ACC.CLEAR returns an OPEN plane to FREE, after what was issued to it before. On a
plane in the other state either stops with 0x0208 (R38, R112, R188, R302; assumption 133 for the waiting work). -/
def Sys2Proof.Claims.PlaneOpenAndClear : Prop :=
  ∀ (n : Nat) (s : State) (pl : Plane),
    let x := s.spindle n
    (∀ b c asrc r tr, issues s n (.accOpen pl b c asrc) → (x.plane pl).isOpen = false →
        s.refTracker x.station (x.s b) = .ok (r, tr) → r.epoch = tr.epoch →
      completes (.accOpen n) s fun t =>
        retires s t n (x.setPlane pl { PlaneSt.free with
          isOpen := true, anchor := if asrc then signedOf 16 (x.s c).toNat else tr.anchor, tref := x.s b }) (x.pc + 8)) ∧
    (issues s n (.accClear pl) → (x.plane pl).isOpen = true →
      completes (.accClear n) s fun t =>
        retires s t n ((x.drainPlane pl x.passes.length).setPlane pl PlaneSt.free) (x.pc + 8)) ∧
    (∀ b c asrc, issues s n (.accOpen pl b c asrc) → (x.plane pl).isOpen = true →
      exec (.accOpen n) s = .next (s.stopSp n 0x0208)) ∧
    (issues s n (.accClear pl) → (x.plane pl).isOpen = false → exec (.accClear n) s = .next (s.stopSp n 0x0208))

/-- Planes: opening, clearing and the exact terms added to them (choice of the model: log 133): `Claims.ExactTermRows`, `Claims.PlaneOpenAndClear`. -/
def Obligations.PlaneRows : Prop := Claims.ExactTermRows ∧ Claims.PlaneOpenAndClear



/-! ### Conversion and rounding of whole tiles -/

/-- CVT completes: with a source tile that passes its checks, its draws, its template's book and its tracker, and an epoch that the
tracker can answer, the image that the encoder makes of the (rescaled) elements lies at the destination, the tracker is sent the
tile's report, and nothing else changes but counters, events and marks of verified images (R194, R220, R229–R243). -/
def Obligations.ConvertRow : Prop :=
  ∀ (n : Nat) (s : State) (dst src : Fmt) (d a b c : Reg) (rnd : Rounding) (resc : Rescale) (at_ from_ tmpl : Nat)
    (word : Nat → Nat) (tile : Tile) (r : TRef) (tr : Tracker) (exp : Nat) (anchor : Int) (prev : Bool),
    let x := s.spindle n
    let sd := DescSeed.parse (s.localRead n tmpl 64)
    let w : CvtWork := ⟨dst, at_, sd, tile, rnd.mode, word, x.s c, resc⟩
    let scaled := s.cvtScaled w r tr prev
    let enc := w.encode tr exp scaled
    s.memOk = true → issues s n (.cvt dst src d a b c rnd resc) → (resc ≠ .none → src = .f32) →
    localAddr (x.s d) 0 64 = .ok at_ → localAddr (x.s a) 0 64 = .ok from_ → localAddr (x.s b) 0 64 = .ok tmpl →
    s.drawWords n rnd sd = .ok word → checkTile (s.localImage n from_) (acceptFmt src) = .ok tile → tile.nonfinite = none →
    (dst = .n4b → bookValid sd.book = true) → s.tileTracker x.station (x.s c) sd.tensor sd.col = .ok (r, tr) →
    tr.read r.epoch = .values exp anchor prev → enc.needsSpill (tr.encCfg dst sd.book rnd.mode exp) = false →
    x.owns .core at_ (w.image enc).length = true →
    completes (.cvt n) s fun t =>
      t.spindle n = { x with pc := (x.pc + 8) % 2 ^ 32, run := .run, wait := .none, verified := (t.spindle n).verified }
      ∧ (∀ m, m ≠ n → t.spindle m = s.spindle m) ∧ wrote s t (localBase n + at_) (w.image enc)
      ∧ t.sk = (s.sendReport (w.report n tr enc scaled)).sk
      ∧ s.requestsKept t ∧ ({ s with sp := t.sp, sk := t.sk, mem := t.mem, bad := t.bad, soft := t.soft, smp := t.smp } : State).notesOnly t

/-- ACC.RND of an OPEN plane, after what was issued to it before, whose half can be written and whose tracker answers: an overflowed plane
that may be tried again writes nothing, opens again empty with its anchor raised by 16 and answers RETRY; any other half is rounded once
into the image (without FIN the exponents and half the payload; with FIN the whole image), the plane is FREE, and d holds OK, or
SATURATED where the accumulators had overflowed, with the retries and drops (R117–R131). The model's choices: the fields of RETRY's
status (assumption 104), a FIN image that must fit local memory (24), and that waiting work retires with the issue (133). -/
def Sys2Proof.Claims.RoundRows : Prop :=
  ∀ (n : Nat) (s : State) (f : Fmt) (d a b : Reg) (pl : Plane) (half fin : Bool) (rnd : Rounding) (at_ tmpl : Nat)
    (word : Nat → Nat) (r : TRef) (tr : Tracker) (exp : Nat) (anchor : Int) (prev : Bool),
    let x := s.spindle n
    let y := x.drainPlane pl x.passes.length
    let p := y.plane pl
    let sd := DescSeed.parse (s.localRead n tmpl 64)
    let cfg := tr.encCfg f sd.book rnd.mode exp
    let o := (x.assembly at_).filter fun _ => half
    let q := if p.overflowed then p.saturated else (p, [])
    let h := roundHalf f cfg q.1 (b2n half) word ((o.map (·.outliers)).getD 0) ((o.map (·.spilling)).getD false) q.2
      (if p.overflowed then p.ovfTerms else 0)
    let img := s.finImage n at_ f sd half (x.assembly at_) h.enc
    s.memOk = true → x.regsOk = true → issues s n (.accRnd f d a b (some pl) half fin rnd) → p.isOpen = true →
    localAddr (x.s a) 0 64 = .ok at_ → localAddr (x.s b) 0 64 = .ok tmpl → (f = .n4b → bookValid sd.book = true) →
    at_ + 0x1C0 + f.payloadLen ≤ 2 ^ 18 → roundRefused (x.assembly at_) f sd.book half fin = none →
    s.drawWords n rnd sd = .ok word →
    (∀ v, (x.assembly at_).bind (·.tref) = some v → half = true → sameSpan v p.tref = true) →
    (p.overflowed = true → p.canRetry = true →
      completes (.accRnd n) s fun t =>
        t.spindle n = { (y.setPlane pl p.retried).setS d (accStatus 1 (p.retries + 1) 0) with
          pc := (x.pc + 8) % 2 ^ 32, run := .run, wait := .none }
        ∧ t.page (pgSPD n) = countedPage s n ∧ othersKept s t n
        ∧ t = { s with sp := t.sp, pages := t.pages, sk := (s.tally n p.tref { Counts.zero with recomputed := 1 }).sk }) ∧
    ((p.overflowed = false ∨ p.canRetry = false) → s.tileTracker x.station p.tref sd.tensor sd.col = .ok (r, tr) →
      tr.read r.epoch = .values exp anchor prev → h.enc.needsSpill cfg = false →
      let status := accStatus (if p.overflowed then 2 else 0) p.retries p.drops
      (fin = false → x.owns .core (at_ + 0x40) 64 = true → x.owns .core (at_ + 0x1C0) (f.payloadLen / 2) = true →
        completes (.accRnd n) s fun t =>
          (t.spindle n).s d = (if d = 0 then 0 else status) ∧ ((t.spindle n).plane pl) = PlaneSt.free
          ∧ (t.spindle n).pc = (x.pc + 8) % 2 ^ 32 ∧ ((t.spindle n).assembly at_).map (·.side) = some h.enc.side
          ∧ t.localRead n (at_ + 0x40) 64 = (List.range 64).map (fun i => BitVec.ofNat 8 (h.enc.exps.getD i 0))
          ∧ t.localRead n (at_ + 0x1C0) (f.payloadLen / 2) =
              (packCodes f.bits fun i => h.enc.codes.getD i 0).take (f.payloadLen / 2)
          ∧ t.sk = s.sk ∧ s.requestsKept t
          ∧ ({ s with sp := t.sp, mem := t.mem, bad := t.bad, soft := t.soft, smp := t.smp } : State).notesOnly t) ∧
      (fin = true → at_ + img.length ≤ 2 ^ 18 → x.owns .core at_ img.length = true →
        completes (.accRnd n) s fun t =>
          (t.spindle n).s d = (if d = 0 then 0 else status) ∧ ((t.spindle n).plane pl) = PlaneSt.free
          ∧ (t.spindle n).pc = (x.pc + 8) % 2 ^ 32 ∧ (∀ m, m ≠ n → t.spindle m = s.spindle m)
          ∧ wrote s t (localBase n + at_) img ∧ s.requestsKept t
          ∧ ({ s with sp := t.sp, sk := t.sk, mem := t.mem, bad := t.bad, soft := t.soft, smp := t.smp } : State).notesOnly t))

/-- ACC.SAVE with FIN: an OPEN plane within range, after what was issued to it before (assumption 133), is written with the half saved before it as a transfer
image, is FREE afterwards, and d holds its status; ACC.SAVE without FIN writes the half's anchor, drops, passes and VALID bit and its 48 KiB
of accumulators, and opens an assembly at that address (R117–R120, R131, R134). -/
def Sys2Proof.Claims.SaveRow : Prop :=
  ∀ (n : Nat) (s : State) (d a b : Reg) (pl : Plane) (half fin : Bool) (at_ tmpl : Nat),
    let x := s.spindle n
    let y := x.drainPlane pl x.passes.length
    let p := y.plane pl
    let sd := DescSeed.parse (s.localRead n tmpl 64)
    let old := (x.assembly at_).map fun _ => xfHalfOf (s.localRead n at_ 98752) 0
    let img := buildXf sd (if half then old else some p.toXf) (if half then some p.toXf else none)
    let after (f : Spindle → Spindle) (t : State) : Prop :=
      t.spindle n = { ((f y).setPlane pl PlaneSt.free).setS d (accStatus 0 p.retries p.drops) with
        pc := (x.pc + 8) % 2 ^ 32, run := .run, wait := .none, verified := (t.spindle n).verified }
      ∧ t.page (pgSPD n) = countedPage s n ∧ othersKept s t n
      ∧ s.requestsKept t
      ∧ t = { s with sp := t.sp, pages := t.pages, mem := t.mem, bad := t.bad, soft := t.soft, smp := t.smp,
                     sk := (s.tally n p.tref { Counts.zero with dropped := p.drops }).sk }
    s.memOk = true → issues s n (.accSave d a b pl half fin) → p.isOpen = true → p.overflowed = false →
    localAddr (x.s a) 0 64 = .ok at_ → localAddr (x.s b) 0 64 = .ok tmpl → at_ + 98752 ≤ 2 ^ 18 →
    (half = true → fin = true) → (half = false → x.assembly at_ = none) → (∀ o, x.assembly at_ = some o → o.save = true) →
    (fin = true → x.owns .core at_ img.length = true →
      completes (.accSave n) s fun t =>
        after (fun x => { x with asm := x.asm.del at_ }) t ∧ wrote s t (localBase n + at_) img) ∧
    (fin = false → x.owns .core (at_ + 0x40) 24 = true → x.owns .core (at_ + 0x1C0) 49152 = true →
      completes (.accSave n) s fun t =>
        after (fun x => { x with asm := x.asm.put at_ { Assembly.empty with save := true } }) t
        ∧ (let h := xfHalfOf (t.localRead n at_ 49600) 0
           h.anchor = signedOf 16 (unsignedOf 16 p.anchor) ∧ h.drops = p.drops % 2 ^ 32 ∧ h.passes = p.passes % 2 ^ 32
             ∧ ∀ i, i < 2048 → h.acc.getD i 0 = signedOf 192 (unsignedOf 192 (p.acc.get 0 i)))
        ∧ t.localRead n (at_ + 0x4C) 1 = [1]
        ∧ (∀ i, i < 0x40 ∨ (0x58 ≤ i ∧ i < 0x1C0) ∨ 0x1C0 + 49152 ≤ i → t.mem.get 0 (localBase n + at_ + i) = s.mem.get 0 (localBase n + at_ + i)))

/-- ACC.RND and ACC.SAVE: the image, the status, the plane afterwards (choices of the model: log 24, 104, 133): `Claims.RoundRows`, `Claims.SaveRow`. -/
def Obligations.RoundAndSaveRows : Prop := Claims.RoundRows ∧ Claims.SaveRow

/-! ### Deferral records and the end of a program -/

/-- BMM.DEFER with room in the ring stores its record, VALID set, in the next slot and counts it pending for its generation; BMM.DONE
frees the oldest slot, discards the backward array's blocks, returns to the main program where it left, and counts the record in DEFER_RUN
beside the retired instruction (R171–R176; that the count stands at BMM.DONE is the model's choice, assumption 30). -/
def Sys2Proof.Claims.DeferralRows : Prop :=
  ∀ (n : Nat) (s : State) (img : StationImage), s.memOk = true → s.imageOf n = some img →
    let x := s.spindle n
    (∀ a at_, issues s n (.bmmDefer a) → img.deferEntry.isSome = true → localAddr (x.s a) 0 1 = .ok at_ → at_ + 64 ≤ 2 ^ 18 →
      let r := s.localRead n at_ 64
      s.genHeld (leAt r 0 2) = true → x.ringCount < img.deferDepth →
      completes (.bmmDefer n) s fun t =>
        t.spindle n = { x with ringCount := x.ringCount + 1, ringGens := x.ringGens ++ [leAt r 0 2], pc := (x.pc + 8) % 2 ^ 32,
                               run := .run, wait := .none, verified := (t.spindle n).verified }
        ∧ t.page (pgSPD n) = countedPage s n ∧ othersKept s t n
        ∧ wrote s t (localBase n + img.ringAddr (x.ringHead + x.ringCount)) (patch r 2 [BitVec.ofNat 8 (leAt r 2 1 ||| 1)])
        ∧ s.requestsKept t ∧ t = { s.setSkein (skeinOf n) ((s.skein (skeinOf n)).pendUp (leAt r 0 2)) with
                sp := t.sp, pages := t.pages, mem := t.mem, bad := t.bad, soft := t.soft, smp := t.smp }) ∧
    (issues s n .bmmDone → x.deferred = true → x.a1.isOpen = false →
      completes (.bmmDone n) s fun t =>
        t.spindle n = { x with deferred := false, ringHead := (x.ringHead + 1) % max 1 img.deferDepth, ringCount := x.ringCount - 1,
                               ringGens := x.ringGens.drop 1, bwd := ⟨none, none⟩, pc := x.retPc % 2 ^ 32, run := .run,
                               wait := .none, verified := (t.spindle n).verified }
        ∧ t.page (pgSPD n) = counted (countedPage s n) (pgSPD n) 4 1 ∧ othersKept s t n
        ∧ wrote s t (localBase n + (img.ringAddr x.ringHead + 2))
            [BitVec.ofNat 8 (leAt (s.localRead n (img.ringAddr x.ringHead) 64) 2 1 / 2 * 2)]
        ∧ s.requestsKept t ∧ t = { s.setSkein (skeinOf n) ((s.skein (skeinOf n)).pendDown (x.ringGens.headD 0)) with
                sp := t.sp, pages := t.pages, mem := t.mem, bad := t.bad, soft := t.soft, smp := t.smp })

/-- A record runs in place of the instruction that starts it: BMM.FLUSH, and END and the yields before they go on, enter deferred mode
at the deferral entry with the record's arguments in s16–s24 of the second bank, their own PC kept for BMM.DONE. A full ring makes
BMM.DEFER do the same. With no record left and a1 FREE, BMM.FLUSH retires (R173–R180). -/
def Sys2Proof.Claims.RecordsRunFirst : Prop :=
  ∀ (n : Nat) (s : State) (img : StationImage) (entry : Nat), s.imageOf n = some img → img.deferEntry = some entry →
    let x := s.spindle n
    x.deferred = false → x.a1.isOpen = false →
    (x.ringCount ≠ 0 →
      (issues s n .bmmFlush → completes (.bmmFlush n) s fun t => runsRecord s t n img entry) ∧
      (issues s n .endProg → x.a0.isOpen = false → completes (.endStation n) s fun t => runsRecord s t n img entry) ∧
      (∀ a at_, issues s n (.bmmDefer a) → localAddr (x.s a) 0 1 = .ok at_ → at_ + 64 ≤ 2 ^ 18 →
          s.genHeld (leAt (s.localRead n at_ 64) 0 2) = true → img.deferDepth ≤ x.ringCount →
        completes (.bmmDefer n) s fun t => runsRecord s t n img entry) ∧
      (∀ a b, issues s n (.yieldK a b) → s.declares x.station (x.s a).toNat = true →
          (s.knot (x.s a).toNat).trace = false → (s.knot (x.s a).toNat).value.ult (x.s b) = true →
        completes (.bmmYieldK n) s fun t => runsRecord s t n img entry)) ∧
    (x.ringCount = 0 → issues s n .bmmFlush → completes (.bmmFlush n) s fun t => retires s t n x (x.pc + 8))

/-- Deferral records: BMM.DEFER, BMM.DONE, BMM.FLUSH and what runs first (reading of the model: log 30): `Claims.DeferralRows`, `Claims.RecordsRunFirst`. -/
def Obligations.DeferralRows : Prop := Claims.DeferralRows ∧ Claims.RecordsRunFirst

/-- The yield points complete as plain continuations where their condition holds and no drained record must run first: BMM.YIELD.K on a
knot that has reached its value, BMM.YIELD.Q on a queue whose PULL would not wait (R178, R180, R183). -/
def Sys2Proof.Claims.YieldRows : Prop :=
  ∀ (n : Nat) (s : State),
    let x := s.spindle n
    (x.deferred = true ∨ s.mustDrain n = false) →
    (∀ a b, issues s n (.yieldK a b) → s.declares x.station (x.s a).toNat = true → (s.knot (x.s a).toNat).trace = false →
        (x.s b).ule (s.knot (x.s a).toNat).value = true →
      completes (.bmmYieldK n) s fun t => retires s t n x (x.pc + 8)) ∧
    (∀ a s', issues s n (.yieldQ a) → (x.s a).toNat ≤ 1048575 → (s.queue (x.s a).toNat).state ≠ 0 →
        (s.queue (x.s a).toNat).decl.consumer = x.station → s.touchHead (x.s a).toNat = some s' →
        ((s'.queueNext (x.s a).toNat x.sliver).isSome || s'.queueEnded (x.s a).toNat x.sliver) = true →
      completes (.bmmYieldQ n) s fun t => t = s'.retire n ∧ (t.spindle n).pc = (x.pc + 8) % 2 ^ 32)

/-- END completes the program: with both planes FREE, no record left and no pass under way, the spindle is ENDED, its banks return to CORE
but for those that prologue copies still target, its assemblies and their spill entries are gone, and its sliver is ended (R206, R290,
R315, R350). -/
def Sys2Proof.Claims.EndRow : Prop :=
  ∀ (n : Nat) (s : State) (u : Station),
    let x := s.spindle n
    let k := s.skein (skeinOf n)
    issues s n .endProg → x.a0.isOpen = false → x.a1.isOpen = false → x.deferred = false → s.runRecord n = none → x.passes = [] →
    s.station x.station = some u →
    completes (.endStation n) s fun t =>
      t.spindle n = { x with pc := (x.pc + 8) % 2 ^ 32, run := .ended, wait := .none, asm := [], spillHeld := 0,
                             banks := x.banks.filter fun b => (s.copyBanks n).contains b.1 }
      ∧ t.page (pgSPD n) = countedPage s n ∧ othersKept s t n
      ∧ t = { s with sp := t.sp, pages := t.pages,
                     sk := (s.setSkein (skeinOf n) { k with
                       spillUsed := k.spillUsed.set 0 x.station (k.spillUsed.get 0 x.station - x.spillHeld) }).sk,
                     stations := s.stations.put x.station { u with slivers := u.slivers.put x.sliver .ended } }

/-- Yield points and the end of a program: `Claims.YieldRows`, `Claims.EndRow`. -/
def Obligations.YieldAndEndRows : Prop := Claims.YieldRows ∧ Claims.EndRow



/-! ### Queues and transfers -/

/-- PULL and PULL.H of a declared queue whose next tile for the sliver is there: with a slot of the quota, no earlier copy on the route and
banks that admit the streaming engine the entry's image, as the writes that wait on it leave it and if it is sound, arrives in local memory, the sliver has no more claim on the entry (PULL.H keeps it held), and the
instruction waits for its transfer. On a queue that has ended both retire at once with CLOSED (R305–R307, R333–R336, R694). -/
def Sys2Proof.Claims.PullRows : Prop :=
  ∀ (n : Nat) (s s1 : State) (d a b : Reg) (at_ : Nat),
    let x := s.spindle n
    let q := (x.s a).toNat
    s.memOk = true → q ≤ 1048575 → (s.queue q).state ≠ 0 → (s.queue q).decl.consumer = x.station → s.touchHead q = some s1 →
    localAddr (x.s b) 0 64 = .ok at_ → quotaRoom s n →
    (∀ e turn, s1.queueNext q x.sliver = some (e, turn) →
      let img := s1.loadNew ((s1.queue q).addr e.slot) e.len
      arrivesSound s1 ((s1.queue q).addr e.slot) img → s1.routeBusy ((s1.queue q).addr e.slot) (localBase n + at_) = false →
      at_ + img.length ≤ 2 ^ 18 → x.ownWrite .stream at_ img.length = true →
      (issues s n (.pull d a b) →
        completes (.pull n) s fun t =>
          underWay s t n d (pullStatus e.len false) none
          ∧ (∀ f ∈ (t.queue q).entries, f.id = e.id → x.sliver ∉ f.toPull ∧ x.sliver ∉ f.toRelease)
          ∧ ((∀ f ∈ (s1.queue q).entries, f.inRing = true) → (t.spindle n).regs = x.regs ∧ wrote s1 t (localBase n + at_) img)) ∧
      (issues s n (.pullH d a b) → x.held.length < 64 →
        completes (.pullH n) s fun t =>
          transferring s t n d (pullStatus e.len false) ∧ (t.spindle n).held = x.held ++ [(q, e.id)]
          ∧ (t.queue q).entries = (s1.queue q).entries.map (fun f =>
              if f.id == e.id then { f with toPull := f.toPull.filter (· != x.sliver) } else f)
          ∧ wrote s1 t (localBase n + at_) img)) ∧
    (s1.queueNext q x.sliver = none → s1.queueEnded q x.sliver = true → (∀ u, s.station x.station = some u → u.copies = []) →
      (issues s n (.pull d a b) →
        completes (.pull n) s fun t =>
          t.spindle n = { x.setS d (pullStatus 0 true) with pc := (x.pc + 8) % 2 ^ 32, run := .run, wait := .none }
          ∧ t.mem = s1.mem) ∧
      (issues s n (.pullH d a b) → x.held.length < 64 →
        completes (.pullH n) s fun t =>
          t.spindle n = { x.setS d (pullStatus 0 true) with pc := (x.pc + 8) % 2 ^ 32, run := .run, wait := .none }
          ∧ t.mem = s1.mem))

/-- PULL.REL releases this spindle's oldest held entry of the queue and retires; PUSH.CLOSE closes the producer sliver's stream, and the
queue is CLOSING once every producer sliver has closed, CLOSED if it holds no entry (R305, R307, R336). -/
def Sys2Proof.Claims.QueueCloseRows : Prop :=
  ∀ (n : Nat) (s s1 : State) (a : Reg),
    let x := s.spindle n
    let q := (x.s a).toNat
    q ≤ 1048575 → (s.queue q).state ≠ 0 → s.touchHead q = some s1 →
    (∀ h, issues s n (.pullRel a) → (s.queue q).decl.consumer = x.station → x.held.find? (fun h => h.1 == q) = some h →
      completes (.pullRel n) s fun t =>
        (t.spindle n).held = x.held.erase h ∧ (t.spindle n).pc = (x.pc + 8) % 2 ^ 32 ∧ (t.spindle n).run = .run
        ∧ (∀ f ∈ (t.queue q).entries, f.id = h.2 → x.sliver ∉ f.toRelease)
        ∧ ((∀ f ∈ (s.queue q).entries, f.inRing = true) →
            t.spindle n = { x with held := x.held.erase h, pc := (x.pc + 8) % 2 ^ 32, run := .run, wait := .none })) ∧
    (issues s n (.pushClose a) → (s.queue q).decl.producer = x.station →
      completes (.pushClose n) s fun t =>
        t.spindle n = { x with pc := (x.pc + 8) % 2 ^ 32, run := .run, wait := .none } ∧ t.mem = s1.mem
        ∧ x.sliver ∈ (t.queue q).closed ∧ (t.queue q).entries = (s.queue q).entries
        ∧ ((∀ p, p < s.nsliver (s.queue q).decl.producer → p = x.sliver ∨ p ∈ (s.queue q).closed) → (s.queue q).state = 1 →
            (t.queue q).state = if (s.queue q).entries.isEmpty then 3 else 2))

/-- PUSH of an open queue, whose image has the declared format and fits a slot, with a slot of the quota and no earlier copy on the route: the
image goes to the lowest free slot as the newest entry, owed to the sliver of its key or to every consumer sliver, and the instruction waits
for its transfer. With
no slot free, or behind other pushes, it waits for one and counts FULL_WAITS once (R305, R334, R338, R339). -/
def Sys2Proof.Claims.PushRow : Prop :=
  ∀ (n : Nat) (s s1 : State) (d a b : Reg) (at_ : Nat) (img : Bytes),
    let x := s.spindle n
    let q := (x.s a).toNat
    let u := s.queue q
    let mine := u.waiting.isEmpty || u.waiting.head? == some n
    issues s n (.push d a b) → q ≤ 1048575 → u.state ≠ 0 → u.decl.producer = x.station → s.touchHead q = some s1 →
    x.sliver ∉ u.closed → localAddr (x.s b) 0 64 = .ok at_ → s1.imageOut n at_ = .ok img →
    (Desc.parse img).format = u.decl.format → img.length ≤ u.decl.slotBytes → quotaRoom s n →
    (∀ slot, mine = true → u.freeSlot = some slot → s1.routeBusy (localBase n + at_) (u.addr slot) = false →
      let owed := u.decl.slivers (Desc.parse img) (s.nsliver u.decl.consumer)
      completes (.push n) s fun t =>
        underWay s t n d (pullStatus img.length false) none
        ∧ (t.queue q).entries = u.entries ++ [⟨u.nextId, slot, img.length, x.sliver, owed, owed⟩]
        ∧ (t.queue q).pushed = satAdd (2 ^ 48 - 1) u.pushed 1 ∧ n ∉ (t.queue q).waiting
        ∧ t.snap = (s1.store (u.addr slot) img (some n)).snap
        ∧ (tearsNone s (u.addr slot) → (t.spindle n).regs = x.regs ∧ t.mem = (s1.store (u.addr slot) img (some n)).mem)) ∧
    ((mine = false ∨ u.freeSlot = none) → n ∉ u.waiting →
      completes (.push n) s fun t =>
        (t.spindle n).run = .waitQueue ∧ (t.spindle n).wait = .push q ∧ (t.spindle n).pc = x.pc
        ∧ (t.queue q).waiting = u.waiting ++ [n] ∧ (t.queue q).fullWaits = sat32 (u.fullWaits + 1) ∧ t.mem = s1.mem)

/-- Tile queues: PULL, PULL.H, PULL.REL, PUSH and PUSH.CLOSE: `Claims.PullRows`, `Claims.QueueCloseRows`, `Claims.PushRow`. -/
def Obligations.QueueRows : Prop := Claims.PullRows ∧ Claims.QueueCloseRows ∧ Claims.PushRow

/-- PULL.A and PUSH.A copy an image between a device address that admits the access and local memory, with no earlier copy on the route,
and wait for their transfer; with TURN the image that arrives is the turned tile, the status counts the inexact elements, and its tracker is
sent the report, at once or, for a source in an exchange bank, when the transfer retires. Behind an earlier copy on the route they wait (R27,
R154–R162, R308, R321, R694). -/
def Sys2Proof.Claims.DeviceTransferRows : Prop :=
  ∀ (n : Nat) (same : Bool) (s : State) (d a b : Reg) (at_ : Nat),
    let x := s.spindle n
    let far := (x.s a).toNat
    let near := localBase n + at_
    let admits (len : Nat) (write : Bool) : Prop := s.deviceCheck far len write = none ∧ s.refusing n far len write = none
    let moved (t : State) : Prop :=
      (∀ m, m ≠ n → t.spindle m = s.spindle m) ∧ s.requestsKept t
      ∧ ({ s with sp := t.sp, sk := t.sk, mem := t.mem, bad := t.bad, soft := t.soft, smp := t.smp, transit := t.transit } : State).notesOnly t
    s.memOk = true → localAddr (x.s b) 0 64 = .ok at_ → quotaRoom s n →
    (∀ c exact, issues s n (.pullA none d a b c exact) →
      let img := s.loadNew far (Desc.parse (s.loadNew far 64)).stored
      s.routeBusy far near = false → admits 64 false → admits img.length false → arrivesSound s far img → at_ + img.length ≤ 2 ^ 18 →
      x.ownWrite .stream at_ img.length = true →
      completes (.pullA ⟨n, same⟩) s fun t => transferring s t n d (pullAStatus img.length 0) ∧ wrote s t near img ∧ moved t) ∧
    (∀ dst c exact tile r tr, issues s n (.pullA (some dst) d a b c exact) →
      let img := s.loadNew far (Desc.parse (s.loadNew far 64)).stored
      s.routeBusy far near = false → admits 64 false → admits img.length false → s.uncorr far img.length = false →
      checkTile img (acceptTurn dst) = .ok tile → s.tileTracker x.station (x.s c) tile.desc.tensor tile.desc.col = .ok (r, tr) →
      let u := turnTile tile dst
      (exact = true → u.inexact = 0) → at_ + u.image.length ≤ 2 ^ 18 → x.ownWrite .stream at_ u.image.length = true →
      completes (.pullA ⟨n, same⟩) s fun t =>
        underWay s t n d (pullAStatus u.image.length u.inexact)
          (if inExchange far then some ⟨far, at_, d, x.s c, dst, exact, img, false⟩ else none)
        ∧ (t.spindle n).regs = x.regs ∧ wrote s t near u.image ∧ moved t
        ∧ (inExchange far = false →
            ∃ rep, (t.skein r.skein).reports = (s.skein r.skein).reports ++ [rep] ∧ rep.tref = x.s c ∧ rep.counts = u.counts)) ∧
    (∀ img, issues s n (.pushA d a b) → s.imageOut n at_ = .ok img → s.routeBusy near far = false → admits img.length true →
      (localParts far img.length ≠ [] → arrivesSound s near img) → (same = true → tearsNone s far) →
      completes (.pushA ⟨n, same⟩) s fun t =>
        transferring s t n d (pullStatus img.length false) ∧ t.mem = (s.devicePut far img (some n)).mem
        ∧ t.snap = (s.devicePut far img (some n)).snap) ∧
    (∀ turn c exact, issues s n (.pullA turn d a b c exact) → admits 64 false → s.routeBusy far near = true →
      exec (.pullA ⟨n, same⟩) s = .next (s.await n .waitTransfer .unit)) ∧
    (∀ img, issues s n (.pushA d a b) → s.imageOut n at_ = .ok img → admits img.length true → s.routeBusy near far = true →
      exec (.pushA ⟨n, same⟩) s = .next (s.await n .waitTransfer .unit))

/-- TRANSFER_COMPLETE, once nothing that was issued before on the same route is still under way, retires the spindle's own transfer: its
status goes to the register, its slot of the quota is free, and TRANSFERS and BYTES of the skein's page count it (R641); a turn out of an
exchange bank sends its report then; a prologue copy writes its image into banks that are STREAM and leaves the station's list. Behind an
earlier transfer it changes nothing (R27, R306, R321, R345–R350). -/
def Sys2Proof.Claims.TransferCompleteRow : Prop :=
  ∀ (n : Nat) (s : State), s.memOk = true → s.jobLive = true → s.paused = false →
    let x := s.spindle n
    let sk := skeinOf n
    let moved (len : Nat) : PageHdr := counted (counted (s.page (pgSKN sk)) (pgSKN sk) 0 1) (pgSKN sk) 1 len
    let retired (t : State) (d : Reg) (status : W64) : Prop :=
      t.spindle n = { ({ x with own := none } : Spindle).setS d status with pc := (x.pc + 8) % 2 ^ 32, run := .run, wait := .none }
      ∧ (∀ m, m ≠ n → t.spindle m = s.spindle m) ∧ t.transit = s.transit.filter (fun u => !(u.is n false 0))
      ∧ t.page (pgSKN sk) = moved (status.toNat % 2 ^ 32) ∧ t.page (pgSPD n) = countedPage s n
      ∧ (∀ p, p ≠ pgSKN sk → p ≠ pgSPD n → t.page p = s.page p)
      ∧ (t.skein sk).quotaUsed = (s.skein sk).quotaUsed.set 0 x.station ((s.skein sk).quotaUsed.get 0 x.station - 1)
      ∧ t = { s with sp := t.sp, sk := t.sk, pages := t.pages, transit := t.transit }
    s.mayArrive n false 0 = true → (∀ u, s.station x.station = some u → u.copies = []) → x.run ≠ .idle →
    (∀ d status, x.own = some ⟨some d, status, false, none⟩ →
      completes (.transferComplete n false) s fun t =>
        retired t d status ∧ t.sk = (s.setSkein sk { s.skein sk with quotaUsed := (t.skein sk).quotaUsed }).sk) ∧
    (∀ d status (j : TurnJob) tile, x.own = some ⟨some d, status, false, some j⟩ → j.torn = false →
      checkTile j.bytes (acceptTurn j.fmt) = .ok tile →
      completes (.transferComplete n false) s fun t =>
        retired t d status ∧ ∃ rep, (t.skein (TRef.parse j.tref).skein).reports = (s.skein (TRef.parse j.tref).skein).reports ++ [rep]
          ∧ rep.tref = j.tref ∧ rep.counts = (turnTile tile j.fmt).counts)

/-- The prologue copies of TRANSFER_COMPLETE, and the transfers that an earlier one on their route holds back. -/
def Sys2Proof.Claims.CopyCompleteRow : Prop :=
  ∀ (n : Nat) (s : State), s.memOk = true → s.jobLive = true → s.paused = false →
    let x := s.spindle n
    let sk := skeinOf n
    (s.mayArrive n false 0 = false → exec (.transferComplete n false) s = .next s) ∧
    (∀ i u c, s.sp.wf Spindle.reset = true → s.copyOf n = some (i, u, c) → s.mayArrive n true c.dst = true → u.copies = [c] →
      x.owns .stream c.dst c.bytes.length = true → x.takenFrom i c.dst c.bytes.length = false →
      u.img.declaresStream c.dst c.bytes.length = true →
      completes (.transferComplete n true) s fun t =>
        wrote s t (localBase n + c.dst) c.bytes ∧ t.station i = some { u with copies := [] }
        ∧ t.page (pgSKN sk) = counted (counted (s.page (pgSKN sk)) (pgSKN sk) 0 1) (pgSKN sk) 1 c.bytes.length
        ∧ (∀ p, p ≠ pgSKN sk → t.page p = s.page p)
        ∧ (t.spindle n).regs = x.regs ∧ (t.spindle n).pc = x.pc
        ∧ (∀ m, m ≠ n → t.spindle m = s.spindle m)) ∧
    (∀ i u c, s.copyOf n = some (i, u, c) → (x.owns .stream c.dst c.bytes.length = false ∨ x.takenFrom i c.dst c.bytes.length = true) →
      s.mayArrive n true c.dst = true →
      exec (.transferComplete n true) s =
        .next ((s.raise (pgSPD n) 2 n).stopSliver i c.sliver n (TileFail.ofCode 0x0304))) ∧
    (∀ i u c, s.copyOf n = some (i, u, c) → s.mayArrive n true c.dst = false → exec (.transferComplete n true) s = .next s)

/-- Device transfers, turning on the way, and the retirement of transfers: `Claims.DeviceTransferRows`, `Claims.TransferCompleteRow`, `Claims.CopyCompleteRow`. -/
def Obligations.TransferRows : Prop := Claims.DeviceTransferRows ∧ Claims.TransferCompleteRow ∧ Claims.CopyCompleteRow

/-! ### Knots -/

/-- KNOT.ADD and KNOT.SET on a declared knot change its value modulo 2^64, mark every waiter whose condition the new value meets, and
answer the previous value; KNOT.RD answers the value; KNOT.WGE and KNOT.WEQ answer it at once where their condition holds, and else the
spindle waits as the last waiter. Nothing else changes but notes (R309, R340, R341). -/
def Sys2Proof.Claims.KnotRows : Prop :=
  ∀ (n : Nat) (s : State) (d a b : Reg),
    let x := s.spindle n
    let k := (x.s a).toNat
    let v := x.s b
    let old := (s.knot k).value
    let answered (t : State) : Prop :=
      t.spindle n = { x.setS d old with pc := (x.pc + 8) % 2 ^ 32, run := .run, wait := .none }
      ∧ (∀ m, m ≠ n → t.spindle m = s.spindle m)
    let waiting (t : State) (eq : Bool) : Prop :=
      t.spindle n = { x with run := .waitKnot, wait := .knot k } ∧ (∀ m, m ≠ n → t.spindle m = s.spindle m)
      ∧ ({ s with sp := t.sp, waiters := s.waiters ++ [⟨n, k, eq, v, .result d, none⟩] } : State).notesOnly t
    s.declares x.station k = true →
    (issues s n (.knot .add d a b) → s.genMisuse k .add v = false →
      completes (.knotAdd n) s fun t => answered t
        ∧ ({ s.setKnot k { s.knot k with value := old + v } with
             sp := t.sp, waiters := markWaiters s.waiters k (old + v) } : State).notesOnly t) ∧
    (issues s n (.knot .set d a b) → s.genMisuse k .set v = false →
      completes (.knotSet n) s fun t => answered t
        ∧ ({ s.setKnot k { s.knot k with value := v } with
             sp := t.sp, waiters := markWaiters s.waiters k v } : State).notesOnly t) ∧
    (issues s n (.knot .rd d a b) →
      completes (.knotRd n) s fun t => answered t ∧ ({ s with sp := t.sp } : State).notesOnly t) ∧
    (issues s n (.knot .wge d a b) →
      (v.ule old = true → completes (.knotWge n) s fun t => answered t ∧ ({ s with sp := t.sp } : State).notesOnly t) ∧
      (v.ule old = false → completes (.knotWge n) s fun t => waiting t false)) ∧
    (issues s n (.knot .weq d a b) →
      (v = old → completes (.knotWeq n) s fun t => answered t ∧ ({ s with sp := t.sp } : State).notesOnly t) ∧
      (v ≠ old → completes (.knotWeq n) s fun t => waiting t true))

/-- KNOT_WAKE takes the first 16 marked waiters of its die's knots off the list, in the order in which they began to wait, and leaves the
others; a spindle woken alone has the value it was marked with in its register and has retired (R341). -/
def Sys2Proof.Claims.KnotWakeRow : Prop :=
  ∀ (die : Nat) (s : State), s.job.state = .loaded → s.paused = false →
    let due := s.waiters.filter fun w => w.mark.isSome && dieOfKnot w.knot == die
    (takeMarked die 16 s.waiters).1 = due.take 16 ∧
    completes (.knotWake die) s (fun t => t.waiters = (takeMarked die 16 s.waiters).2 ∧ t.mem = s.mem ∧ t.knots = s.knots) ∧
    (∀ n k eq w d v, due = [⟨n, k, eq, w, .result d, some v⟩] → (s.spindle n).run ≠ .idle →
      completes (.knotWake die) s fun t =>
        retires { s with waiters := t.waiters } t n ((s.spindle n).setS d v) ((s.spindle n).pc + 8))

/-- A generation knot that a station may not change stops it: on COMMITS an ADD or SET that changes it, on a slot knot a SET or an ADD
that changes it other than by ±1 without carry or borrow past its pins (R397); an undeclared knot stops it too (R309, R340). -/
def Sys2Proof.Claims.KnotMisuseStops : Prop :=
  ∀ (n : Nat) (s : State) (op : KnotOp) (d a b : Reg) (c : Instr),
    let x := s.spindle n
    let k := (x.s a).toNat
    c = (match op with
      | .add => .knotAdd n | .set => .knotSet n | .wge => .knotWge n | .weq => .knotWeq n | .rd => .knotRd n) →
    issues s n (.knot op d a b) →
    (s.declares x.station k = false → exec c s = .next (s.stopSp n 0x0401)) ∧
    (s.declares x.station k = true → ∀ g, s.genKnot = some g →
      (k = g + 3 → op = .set → x.s b ≠ (s.knot k).value → exec c s = .next (s.stopSp n 0x0414)) ∧
      (k = g + 3 → op = .add → x.s b ≠ 0 → exec c s = .next (s.stopSp n 0x0414)) ∧
      (g ≤ k → k < g + 3 → op = .set → exec c s = .next (s.stopSp n 0x0414)) ∧
      (g ≤ k → k < g + 3 → op = .add → x.s b ≠ 0 → x.s b ≠ 1 → x.s b ≠ 0xFFFFFFFFFFFFFFFF → exec c s = .next (s.stopSp n 0x0414)) ∧
      (g ≤ k → k < g + 3 → op = .add → x.s b = 1 → skPins (s.knot k).value = 0xFFFFFFFF → exec c s = .next (s.stopSp n 0x0414)) ∧
      (g ≤ k → k < g + 3 → op = .add → x.s b = 0xFFFFFFFFFFFFFFFF → skPins (s.knot k).value = 0 →
        exec c s = .next (s.stopSp n 0x0414)) ∧
      (g ≤ k → k < g + 4 → op = .add → x.s b = 0 → s.genMisuse k op (x.s b) = false))

/-- Knots: operations, waiters and their wakes, and refused changes of generation knots: `Claims.KnotRows`, `Claims.KnotWakeRow`, `Claims.KnotMisuseStops`. -/
def Obligations.KnotRows : Prop := Claims.KnotRows ∧ Claims.KnotWakeRow ∧ Claims.KnotMisuseStops



/-! ### Stops and timeouts -/

/-- A stop that a spindle meets at its instruction stops the live job: the record names the code, the spindle and its PC, every spindle
that runs is STOPPED with its work discarded, no wait is left, and memory is untouched (R284, R329). -/
def Sys2Proof.Claims.StopOfAStation : Prop :=
  ∀ (s : State) (n : Nat) (code : W16), s.jobLive = true →
    stoppedWith s (s.stopSp n code) (stopRecOf s n code) ∧ raised (s.stopSp n code) (pgSPD n) 0 ∧ raised (s.stopSp n code) pgMOD 1
    ∧ ((s.page (pgSPD n)).errValid = false →
        ((s.stopSp n code).page (pgSPD n)).errValid = true ∧ ((s.stopSp n code).page (pgSPD n)).errCode = code
        ∧ ((s.stopSp n code).page (pgSPD n)).errInfo = BitVec.ofNat 32 (s.spindle n).pc)

/-- A wait that reaches the station's KNOT_TIMEOUT stops the job with the code of the wait: QUEUE_TIMEOUT, QUEUE_FULL_TIMEOUT, the
tracker's, the spill pool's and the knot's, whichever command reports it; the station watchdog stops it with STATION_WATCHDOG (R189,
R206, R307, R309, R339, R343, R652). -/
def Sys2Proof.Claims.TimeoutRows : Prop :=
  ∀ (n : Nat) (s : State),
    let stops (c : Instr) (r : StopRec) : Prop := completes c s fun t => stoppedWith s t r
    (s.pullWaiting n = true → stops (.queueTimeout n) (stopRecOf s n 0x0404) ∧ stops (.knotTimeout n) (stopRecOf s n 0x0404)) ∧
    (∀ q, s.pushWaiting n = some q → stops (.queueFullTimeout n) (stopRecOf s n 0x0408)) ∧
    (s.epochWaiting n = true → stops (.trackerWaitTimeout n) (stopRecOf s n 0x0411)) ∧
    (s.spillWaiting n = true → stops (.spillWaitTimeout n) (stopRecOf s n 0x0412)) ∧
    (∀ k eq v u, (s.spindle n).wait = .knot k → s.spillWaiting n = false → s.jobLive = true → s.paused = false →
      s.waiters = [⟨n, k, eq, v, u, none⟩] → (u = .proceed ∨ ∃ d, u = .result d) →
      stops (.knotTimeout n) (stopRecOf s n 0x0402)) ∧
    (∀ station u, s.station station = some u → s.trace.wdMs ≠ 0 → s.jobLive = true → s.paused = false →
      (u.slivers.any fun kv => kv.2 == .running) = true →
      stops (.stationWatchdog station) { StopRec.none with code := 0x0409, station := station })

/-- What a stop leaves, and the waits that time out into one: `Claims.StopOfAStation`, `Claims.TimeoutRows`. -/
def Obligations.StopsAndTimeouts : Prop := Claims.StopOfAStation ∧ Claims.TimeoutRows

/-! ### Random numbers, sampling, marks and banks -/

/-- RNG.U and RNG.N write all 32 lanes with the words, or the normal variates, of 32 consecutive positions of a filled seed slot (R252–R256). -/
def Sys2Proof.Claims.RandomLaneRows : Prop :=
  ∀ (n : Nat) (s : State) (d a b : Reg) (slot : BitVec 4) (key : SlotKey),
    let x := s.spindle n
    let ss := x.s b
    s.laneKey n ss slot.toNat = .ok key →
    (issues s n (.rngU d a b slot) → 1 ≤ field ss.toNat 56 8 → field ss.toNat 56 8 ≤ 5 →
      completes (.rngU n) s fun t =>
        retires s t n (x.setV d ((List.range 32).map fun l => (laneDraw key (x.s a) ss (field ss.toNat 56 8) l).c0)) (x.pc + 8)) ∧
    (issues s n (.rngN d a b slot) →
      completes (.rngN n) s fun t =>
        retires s t n (x.setV d ((List.range 32).map fun l =>
          normalVariate (laneDraw key (x.s a) ss 5 l).c0 (laneDraw key (x.s a) ss 5 l).c1)) (x.pc + 8))

/-- RNG.MASK queues its checked request at the skein's ply unit and waits; MASK_COMPLETE writes the oldest request's 512 bytes where it
names them in the skein and retires its RNG.MASK (R223, R224, R310). -/
def Sys2Proof.Claims.MaskRows : Prop :=
  ∀ (s : State), s.memOk = true → s.sp.wf Spindle.reset = true → s.sk.wf Skein.reset = true →
    (∀ n a at_ key w, issues s n (.rngMask a) →
      let x := s.spindle n
      let k := skeinOf n
      let m := MaskDesc.parse (s.localRead n at_ 32)
      localAddr (x.s a) 0 64 = .ok at_ → s.seedKey m.slot = .ok key → s.tensorWidth x.station m.tensor = some w → m.width = w →
      s.genHeld m.gen = true → destInSkein k m.dest = true → m.dest % 64 = 0 → m.reserved = 0 → (s.skein k).masks.length < 64 →
      quotaRoom s n →
      completes (.rngMask n) s fun t =>
        (t.spindle n).own = some ⟨none, 0, true, none⟩ ∧ (t.spindle n).run = .waitTransfer ∧ (t.spindle n).pc = x.pc
        ∧ (t.skein k).masks = (s.skein k).masks ++
            [⟨n, key, w, m.tensor, m.row, m.col, s.serialOf m.gen, m.thresh, m.dest⟩]
        ∧ (∀ i, i ≠ n → t.spindle i = s.spindle i) ∧ t = { s with sp := t.sp, sk := t.sk }) ∧
    (∀ k r rest, s.jobLive = true → s.paused = false → (s.skein k).masks = r :: rest → s.maskRefused r.spindle r.dest = none →
      destInSkein k r.dest = true → k < 72 → (s.spindle r.spindle).run ≠ .idle →
      (∀ u, s.station (s.spindle r.spindle).station = some u → u.copies = []) →
      completes (.maskComplete k) s fun t =>
        wrote s t r.dest (maskImage r.key r.width r.tensor r.row r.col r.serial r.thresh)
        ∧ (t.spindle r.spindle).own = none ∧ (t.spindle r.spindle).run = .run
        ∧ (t.spindle r.spindle).pc = ((s.spindle r.spindle).pc + 8) % 2 ^ 32 ∧ (t.skein k).masks = rest)

/-- RNG.SAMPLE copies its descriptor, with what its row table and tiles hold, into the die's queue of 16 and retires (R259, R271);
SAMPLE_REQUEST_SERVE takes the oldest request, writes the result of every valid row that nothing has touched since, be it for a while, notes
no error and adds 1 to SD_KNOT (R261–R271). -/
def Sys2Proof.Claims.SampleRows : Prop :=
  ∀ (s : State), s.memOk = true → s.smp.wf Sampler.reset = true → s.knots.wf Knot.reset = true →
    (∀ n a at_, issues s n (.rngSample a) →
      let x := s.spindle n
      let desc := s.localRead n at_ 64
      let sd := SampleDesc.parse desc
      let u := s.sampler (dieOfSpindle n)
      localAddr (x.s a) 0 64 = .ok at_ → s.hasSmp = true → u.queue.length < 16 →
      completes (.rngSample n) s fun t =>
        retires { s with smp := t.smp } t n x (x.pc + 8)
        ∧ (t.sampler (dieOfSpindle n)).queue = u.queue ++ [⟨n, x.station, x.sliver, at_, desc, s.loadNew sd.rows 512,
            (List.range (min sd.tiles 16384)).map fun c => s.loadNew (sd.logits + c * sd.stride) 16832, []⟩]) ∧
    (∀ die q rest key sets s1, s.jobLive = true → s.paused = false → (s.sampler die).queue = q :: rest → (s.sampler die).ending = none →
      let d := SampleDesc.parse q.desc
      let rows := s.load d.rows 512
      let s0 := (s.setSampler die { s.sampler die with queue := rest }).demandRead d.rows 512
      s.snap.waits = [] → (∀ p, s.pageHeld p = false) → d.invalid = false → s.samplerReach d.rows 512 = none →
      (validRows rows).isEmpty = false → s.samplerReach d.results 512 = none → s.sampleKey q.station d = .ok key → d.logits % 64 = 0 →
      gatherTiles die d none (List.range d.tiles) ((validRows rows).map fun r => (r, [])) s0 = (.ok sets, s1) →
      (∀ r, q.touched (s.localRead q.spindle q.at_ 64) rows
        ((List.range d.tiles).map fun c => s.load (d.logits + c * d.stride) 16832) r = false) →
      s.declares q.station d.knot = true → s.genMisuse d.knot .add 1 = false →
      completes (.sampleRequestServe die) s fun t =>
        (t.sampler die).queue.map SampleReq.unmarked = rest.map SampleReq.unmarked ∧ (t.sampler die).ending = none ∧ (t.sampler die).lastErr = 0 ∧ (t.sampler die).lastSpd = q.spindle
        ∧ (t.knot d.knot).value = (s.knot d.knot).value + 1
        ∧ (∀ r cs, (r, cs) ∈ sets → (∀ cs', (r, cs') ∈ sets → cs' = cs) →
            t.load (d.results + 8 * r) 8 = leBytes 8 (d.result key (rowSeq rows r) (rowPos rows r) cs).1)
        ∧ (∀ b, (∀ r cs, (r, cs) ∈ sets → b < d.results + 8 * r ∨ d.results + 8 * r + 8 ≤ b) → t.mem.get 0 b = s.mem.get 0 b))

/-- Random lanes, dropout masks and token sampling: `Claims.RandomLaneRows`, `Claims.MaskRows`, `Claims.SampleRows`. -/
def Obligations.RandomAndSampleRows : Prop := Claims.RandomLaneRows ∧ Claims.MaskRows ∧ Claims.SampleRows

/-- The record of EVT.MARK and EVT.TRIG: the spindle's stamp, MARK set beside the other flags, the program's code and the low 32 bits of
register A (R311, R642). -/
def Sys2Proof.Claims.markRec (s : State) (n : Nat) (a : Reg) (code : BitVec 16) (flags : Nat) : TraceRec :=
  ⟨s.stamp (dieOfSpindle n), 0x32, 0x20 + flags, n, code.toNat, ((s.spindle n).s a).toNat % 2 ^ 32, none⟩

/-- EVT.MARK retires and writes its record, which is then the newest of the spindle's ring, with POST set in the POST phase; a ring that has
stopped counts it as dropped and keeps its records. EVT.TRIG also raises TRIG; if the rings are ARMED and the trigger is enabled it captures
them as source 0, and its record carries TRIGGER (R311, R322, R642, R646–R649). -/
def Sys2Proof.Claims.MarkRows : Prop :=
  ∀ (n : Nat) (s : State) (a : Reg) (code : BitVec 16), n < 4608 →
    let x := s.spindle n
    let g := s.ring (pgSPD n)
    let post : Nat := if s.trace.phase = .post then 2 else 0
    (issues s n (.evtMark a code) →
      completes (.evtMark n) s fun t =>
        retiresNoting s t n x ∧ t.trace.phase = s.trace.phase
        ∧ (s.ringStopped 64 g = false → (t.ring (pgSPD n)).recs.getLast? = some (markRec s n a code post))
        ∧ (s.ringStopped 64 g = true → t.ring (pgSPD n) = { g with frozenDrop := g.frozenDrop + 1 })) ∧
    (issues s n (.evtTrig a code) →
      completes (.evtTrig n) s fun t =>
        retiresNoting s t n x ∧ raised t (pgSPD n) 1
        ∧ (s.trace.phase = .armed → bit s.trace.trigMask 0 = true → t.trace.phase = .post ∧ t.trace.lastSrc = 0
            ∧ (g.frozen = false → g.post < s.postN 64 → markRec s n a code 6 ∈ (t.ring (pgSPD n)).recs))
        ∧ ((s.trace.phase ≠ .armed ∨ bit s.trace.trigMask 0 = false) → t.trace.phase = s.trace.phase
            ∧ (s.ringStopped 64 g = false → markRec s n a code post ∈ (t.ring (pgSPD n)).recs)))

/-- BANK.GIVE hands a CORE bank that is not the deferral ring's to its owner, with SHARE off; BANK.TAKE returns a bank that no prologue
copy targets to CORE, and with such copies waits for those, the bank refusing what comes later; on a CORE bank it has no effect. BANK.SHARE
sets SHARE of a CORE bank. A bank given or shared that is not CORE, and the deferral ring's given away, stop the station (R315, R350). -/
def Sys2Proof.Claims.BankRows : Prop :=
  ∀ (n : Nat) (s : State) (b : BitVec 4),
    let x := s.spindle n
    let old := x.bank b.toNat
    (∀ o, issues s n (.bankGive b o) →
      (old.owner = .core → s.isDeferBank n b.toNat = false →
        completes (.bankGive n) s fun t =>
          retires s t n (x.setBank b.toNat ⟨Owner.ofCode o.toNat, false, false⟩) (x.pc + 8)) ∧
      ((old.owner ≠ .core ∨ s.isDeferBank n b.toNat = true) → exec (.bankGive n) s = .next (s.stopSp n 0x0304))) ∧
    (issues s n (.bankTake b) →
      (old.owner = .core → completes (.bankTake n) s fun t => retires s t n x (x.pc + 8)) ∧
      (old.owner ≠ .core → b.toNat ∉ s.copyBanks n →
        completes (.bankTake n) s fun t => retires s t n (x.setBank b.toNat Bank.core) (x.pc + 8)) ∧
      (old.owner ≠ .core → s.copyStations n b.toNat ≠ [] → x.wait = .none →
        completes (.bankTake n) s fun t =>
          t.spindle n = { x.setBank b.toNat { old with pending := true } with run := .waitTransfer, wait := .take (s.copyStations n b.toNat) }
          ∧ (∀ m, m ≠ n → t.spindle m = s.spindle m) ∧ t = { s with sp := t.sp })) ∧
    (∀ v, issues s n (.bankShare b v) →
      (old.owner = .core →
        completes (.bankShare n) s fun t => retires s t n (x.setBank b.toNat ⟨.core, v, false⟩) (x.pc + 8)) ∧
      (old.owner ≠ .core → exec (.bankShare n) s = .next (s.stopSp n 0x0304)))

/-- Trace marks and triggers, and the owners of local-memory banks: `Claims.MarkRows`, `Claims.BankRows`. -/
def Obligations.MarkAndBankRows : Prop := Claims.MarkRows ∧ Claims.BankRows



/-! ### Stations, skeins and clocks -/

/-- STATION_START: a sliver whose condition holds asks for the wake of a skein that is off; once the skein is ready, its prologue done and
its spindle free, the spindle runs at the image's entry with cleared registers and planes and the banks that the image declares (R277,
R315, R326–R328, R351). -/
def Sys2Proof.Claims.StationStartRow : Prop :=
  ∀ (s : State) (station sliver : Nat) (u : Station),
    let n := u.img.spindleOf sliver
    let k := skeinOf n
    s.job.state = .loaded → s.paused = false → s.station station = some u → sliver < u.img.spindles.length →
    s.startHolds u sliver = true →
    (u.slivers.get .waiting sliver = .waiting ∨ u.slivers.get .waiting sliver = .waking
      ∨ u.slivers.get .waiting sliver = .prologue) →
    ((s.skein k).power = .ready → u.prologueDone sliver = true → ((s.spindle n).run = .idle ∨ (s.spindle n).run = .ended) →
      completes (.stationStart station sliver) s fun t =>
        t.spindle n = { Spindle.reset with
          run := .run, station := u.img.number, sliver := sliver, nsliver := u.img.spindles.length, pc := u.img.entry,
          banks := u.img.bankTable, verified := (s.spindle n).verified }
        ∧ (∀ m, m ≠ n → t.spindle m = s.spindle m)
        ∧ t = { s with sp := t.sp,
                       stations := s.stations.put station { u with slivers := u.slivers.put sliver .running } }) ∧
    ((s.skein k).power = .off → s.power.coolantStop = false →
      completes (.stationStart station sliver) s fun t =>
        (t.skein k).power = .requested ∧ t.power.queue = s.power.queue ++ [.wake k]
        ∧ t.station station = some { u with slivers := u.slivers.put sliver .waking } ∧ t.sp = s.sp ∧ t.mem = s.mem)

/-- START_SEQ_GRANT takes the oldest request: a wake starts its skein, a raise is granted to its domain. SKEIN_READY clears the woken
skein's pool and local memories, writes the code of the stations placed on it, and makes it ready. POWER_DOMAIN_RAISE gives a granted
domain the clock of the mode asked for (R351, R352, R375, R581, R584). -/
def Sys2Proof.Claims.SkeinPowerRows : Prop :=
  ∀ (s : State), s.paused = false →
    (∀ q rest, s.power.queue = q :: rest →
      completes .startSeqGrant s fun t =>
        t.power.queue = rest ∧ t.mem = s.mem
        ∧ (∀ d, q = .raise d → t.power.granted = s.power.granted ++ [.raise d] ∧ t.sk = s.sk)
        ∧ (∀ k, q = .wake k → (s.skein k).power = .requested →
            (t.skein k).power = .waking ∧ t.power.granted = s.power.granted)) ∧
    (∀ k, k < 72 → s.memOk = true → (s.skein k).power = .waking →
      (∀ v ∈ s.stations, v.2.copies = [] ∧ v.2.img.codeBase + v.2.img.codeLen ≤ 0x3F0000) →
      completes (.skeinReady k) s fun t =>
        (t.skein k).power = .ready ∧ raised t (pgSKN k) 1
        ∧ (∀ a, localBase (64 * k) ≤ a → a < localBase (64 * k + 64) → t.mem.get 0 a = 0)
        ∧ (∀ v ∈ s.stations, v.2.img.spindles.any (fun n => skeinOf n == k) = true →
            (∀ w ∈ s.stations, w.2.img.spindles.any (fun n => skeinOf n == k) = true → w = v) →
            t.load (poolBase k + v.2.img.codeBase) v.2.img.codeLen = fitBytes v.2.img.codeLen v.2.img.code)
        ∧ (∀ a, (a < poolBase k ∨ poolBase k + 0x400000 ≤ a) → (a < localBase (64 * k) ∨ localBase (64 * k + 64) ≤ a) →
            t.mem.get 0 a = s.mem.get 0 a)) ∧
    (∀ d, s.power.granted.contains (.raise d) = true → s.power.pendingMode = none →
      completes (.powerDomainRaise d) s fun t =>
        t.power.domain d = s.power.mode ∧ t.power.granted = s.power.granted.erase (.raise d) ∧ t = { s with power := t.power })

/-- PROLOGUE_TRIGGER on a skein that is not ready yet issues the copies of the successor's slivers there, each once: they wait in the
station's list, and a skein that is off is asked to wake (R347, R348). -/
def Sys2Proof.Claims.PrologueTriggerRow : Prop :=
  ∀ (s : State) (station k : Nat) (u : Station),
    let mine := (List.range u.img.spindles.length).filter fun i => skeinOf (u.img.spindleOf i) == k
    s.job.state = .loaded → s.paused = false → s.station station = some u → u.triggered.contains k = true →
    u.issued.contains k = false → (s.skein k).power ≠ .ready →
    (∀ i ∈ mine, ∀ e ∈ u.img.prologue.get [] i, ∃ src dst, e = PrologueEntry.copy src dst) →
    completes (.prologueTrigger station k) s fun t =>
      t.station station = some { u with
        issued := u.issued ++ [k],
        copies := u.copies ++ mine.flatMap fun i => (u.img.prologue.get [] i).filterMap fun e =>
          match e with
          | .copy src dst => some ⟨i, src, dst, false, []⟩
          | .warm _ => none }
      ∧ ((s.skein k).power = .off → s.power.coolantStop = false →
          (t.skein k).power = .requested ∧ t.power.queue = s.power.queue ++ [.wake k])
      ∧ t = { s with stations := t.stations, sk := t.sk, power := t.power }

/-- Station start, skein wake and clock raise, prologue trigger: `Claims.StationStartRow`, `Claims.SkeinPowerRows`, `Claims.PrologueTriggerRow`. -/
def Obligations.StationAndSkeinRows : Prop := Claims.StationStartRow ∧ Claims.SkeinPowerRows ∧ Claims.PrologueTriggerRow

/-! ### The ply unit -/

/-- TRACKER_REPORT takes the oldest report that its tracker can take off the list and adds its counts to the totals; a report of the
epoch as advanced joins that step, one of the next epoch the step after it, and a tally joins none (R190–R195). -/
def Sys2Proof.Claims.TrackerReportRow : Prop :=
  ∀ (s : State) (k i : Nat) (r : Report),
    let ref := TRef.parse r.tref
    let tr := s.trackerOf ref
    let tally := ref.tally || tr.bind.stepTiles == 0
    s.jobLive = true → s.paused = false → s.readyReport k = some i → (s.skein k).reports[i]? = some r → ref.skein = k →
    tr.bound = true →
    (let counted : Tracker := { tr with ctr := tr.ctr.addSat ctrTop r.counts }
     let lands (u : Tracker) : Prop := completes (.trackerReport k) s fun t =>
       (t.skein k).reports = dropAt (s.skein k).reports i ∧ t.trackerOf ref = u
       ∧ ({ s with sk := t.sk, sp := t.sp } : State).notesOnly t
     (tr.judge ref.epoch tally = .past → lands counted) ∧
     (∀ j, tr.judge ref.epoch tally = .join j → lands (
       if tally then counted
       else if j = 0 then { counted with cur := tr.cur.join r }
       else if j = 1 then { counted with nxt := tr.nxt.join r }
       else { counted with nxt2 := tr.nxt2.join r }))) ∧
    (tr.judge ref.epoch tally = .stale → ((s.spindle r.spindle).wait = .report → (s.spindle r.spindle).run = .waitTracker) →
      completes (.trackerReport k) s fun t => stoppedWith s t (stopRecOf s r.spindle 0x020B))

/-- TRACKER_STEP, once the last report of the epoch has arrived, runs the policy engine: the tracker takes the new exponent, anchor, state
and history, keeps the old values for the previous epoch, goes to the next epoch with what has been collected for it, and steps its
channels (R190, R193, R211–R221). -/
def Sys2Proof.Claims.TrackerStepRow : Prop :=
  ∀ (s : State) (k j : Nat),
    let tr := s.trackerOf ⟨0, false, k, j⟩
    let u := tr.policy ((s.skein k).table tr.slot)
    s.jobLive = true → s.paused = false → tr.bound = true → tr.stepping = true →
    completes (.trackerStep k j) s fun t =>
      t.trackerOf ⟨0, false, k, j⟩ = { u with
        epoch := tr.epoch + 1, prevExp := tr.exp, prevAnchor := tr.anchor, cur := tr.nxt, nxt := tr.nxt2, nxt2 := StepAcc.zero,
        ctr := (t.trackerOf ⟨0, false, k, j⟩).ctr }
      ∧ (t.skein k).channels = (stepChannels tr.bind (s.skein k).channels).1
      ∧ ({ s with sk := t.sk } : State).notesOnly t

/-- The exponent that a policy step leaves lies in 1 to 0xFE whenever it lay there before, the anchor in 16 signed bits and the dwell in
16 bits; an empty step changes nothing (R211–R216). -/
def Sys2Proof.Claims.PolicyStaysInRange : Prop :=
  ∀ (t : Tracker) (tab : Bytes), 1 ≤ t.exp → t.exp ≤ 0xFE → -32768 ≤ t.anchor → t.anchor ≤ 32767 → t.dwell ≤ 65535 →
    let u := t.policy tab
    1 ≤ u.exp ∧ u.exp ≤ 0xFE ∧ -32768 ≤ u.anchor ∧ u.anchor ≤ 32767 ∧ u.dwell ≤ 65535 ∧ u.hist.length ≤ max 16 t.hist.length
    ∧ u.epoch = t.epoch ∧ u.ctr = t.ctr ∧ (t.cur.fit = 0 → u = t)

/-- Scale trackers: reports, steps and the range a policy step keeps: `Claims.TrackerReportRow`, `Claims.TrackerStepRow`, `Claims.PolicyStaysInRange`. -/
def Obligations.TrackerRows : Prop := Claims.TrackerReportRow ∧ Claims.TrackerStepRow ∧ Claims.PolicyStaysInRange

/-- SPILL_RESERVATION grants the oldest waiting request its entries when its station's quota has room; SPILL_WAIT raises its event for the
tracker that the waiting encoding names, on the page of that tracker's ply unit (R204–R206, R226; which unit raises it is the model's
choice, assumption 107). -/
def Obligations.SpillRows : Prop :=
  ∀ (s : State), s.jobLive = true → s.paused = false →
    (∀ k q, (s.skein k).spillUsed.wf 0 = true → (s.skein k).spillWait.find? (fun r => !r.granted) = some q →
      q.want ≤ (s.skein k).spillFree q.station (s.spillQuota q.station k) →
      completes (.spillReservation k) s fun t =>
        (t.skein k).spillUsed.get 0 q.station = (s.skein k).spillUsed.get 0 q.station + q.want
        ∧ (∀ r ∈ (t.skein k).spillWait, r.spindle = q.spindle → r.granted = true)
        ∧ t = { s with sk := t.sk }) ∧
    (∀ n, s.spillWaiting n = true →
      completes (.spillWait n) s fun t => raised t (pgPLY (TRef.parse (s.waitTref n)).skein) 4 ∧ s.notesOnly t)



/-! ### The generation engine -/

/-- GEN_SLOT_BUILT: once BUILD has reached the target of the generation in BUILDING, its slot knot reads BUILT with the serial and pins it
had, in one operation, and no other knot changes (R397, R400). -/
def Sys2Proof.Claims.SlotBuiltRow : Prop :=
  ∀ (s : State) (m : Mapping),
    let n := s.commits
    let j := n % 3
    s.job.mapping = some m → s.jobLive = true → s.paused = false → s.slotState j = 1 →
    (s.build + 2 ^ 64 - (n + 1) * m.buildInc.toNat % 2 ^ 64) % 2 ^ 64 < 2 ^ 63 →
    completes .genSlotBuilt s fun t =>
      t.slotState j = 2 ∧ t.slotSerial j = s.slotSerial j ∧ skPins (t.slotKnot j) = skPins (s.slotKnot j)
      ∧ (∀ k, k ≠ m.genKnot + j → t.knot k = s.knot k)
      ∧ ({ s with knots := t.knots, waiters := t.waiters } : State).notesOnly t

/-- The decision for the open vote, received on the ring: held until its position, and applied at once where that has passed. An applied
COMMIT, with no record to drain and no pins in the slot it closes, makes the BUILT slot CURRENT and the CURRENT one PREVIOUS, empties the
third and builds generation n + 1 there, and COMMITS rises; an applied DEFER changes no knot and counts, and carries the SNAP_OPENs of its
position that waited for the decision (R401, R410, R411, R414, R540, R567). -/
def Obligations.DecisionRows : Prop :=
  ∀ (s : State) (f : TFrame) (v : OpenVote),
    s.gen.vote = some v → s.job.state = .loaded → s.soloJob = false → v.pos % 4096 = f.arg → s.trd.heldDecision = none →
    s.paused = false →
    (posLe v.pos s.jobPos = false →
      (atWorker s { f with op := opCOMMIT } → completes (.commit f) s fun t => t.trd.heldDecision = some (v.pos, true) ∧ t.knots = s.knots) ∧
      (atWorker s { f with op := opDEFER } → completes (.defer f) s fun t => t.trd.heldDecision = some (v.pos, false) ∧ t.knots = s.knots)) ∧
    (posLe v.pos s.jobPos = true →
      (∀ g, atWorker s { f with op := opCOMMIT } → s.genKnot = some g → s.knots.wf Knot.reset = true →
        let n := s.commits
        let j := n % 3
        let o := (n + 1) % 3
        let p := (n + 2) % 3
        n < 2 ^ 24 - 1 → s.slotState j = 2 → s.slotState p = 3 → s.slotState o = 4 → skPins (s.slotKnot o) = 0 →
        (∀ kx ∈ s.sk, kx.2.drain = false ∧ kx.2.drainCount ((n + 65535) % 65536) = 0) → s.gen.held = [] →
        s.evt.undecided = [] →
        completes (.commit f) s fun t =>
          t.slotState j = 3 ∧ t.slotState p = 4 ∧ t.slotState o = 1 ∧ t.slotSerial o = n + 1 ∧ t.commits = n + 1
          ∧ t.slotSerial j = s.slotSerial j ∧ t.gen.vote = none ∧ t.gen.applied = none ∧ raised t pgTRD 2 ∧ raised t pgTRD 16) ∧
      (atWorker s { f with op := opDEFER } →
        completes (.defer f) s fun t =>
          t.knots = s.knots ∧ t.gen.vote = none ∧ t.gen.phase = .late ∧ t.trd.heldDecision = none ∧ raised t pgTRD 2 ∧ raised t pgTRD 17
          ∧ t.evt.undecided = [] ∧ t.evt.carried = s.evt.carried ++ s.evt.undecided.map (·.2)
          ∧ (t.page pgTRD).counter 0x20C = satAdd (2 ^ 32 - 1) ((s.page pgTRD).counter 0x20C) 1))

/-- COMMIT_COMPLETE, once DRAIN has ended on every skein and the CLOSING slot has no pins, empties that slot, builds generation n + 1 in it,
raises COMMITS and notes how long the drain took; COMMIT_UNDECIDED, with the vote's position and lead passed, stops the job (R401, R410,
R411, R432). -/
def Sys2Proof.Claims.CommitEndRows : Prop :=
  ∀ (s : State), s.jobLive = true → s.paused = false →
    (∀ n g us, s.gen.applied = some n → s.genKnot = some g → s.knots.wf Knot.reset = true → s.canComplete = true →
      s.slotState ((n + 1) % 3) = 5 → n < 2 ^ 24 - 1 → s.commits < 2 ^ 64 - 1 →
      completes (.commitComplete us) s fun t =>
        t.slotState ((n + 1) % 3) = 1 ∧ t.slotSerial ((n + 1) % 3) = n + 1 ∧ t.commits = s.commits + 1
        ∧ t.gen.applied = none ∧ t.gen.drainUs = us % 2 ^ 32 ∧ raised t pgTRD 16
        ∧ (∀ j, j < 3 → j ≠ (n + 1) % 3 → t.slotKnot j = s.slotKnot j)) ∧
    (∀ v, s.gen.vote = some v → v.pos + s.mapLead ≤ s.jobPos →
      completes .commitUndecided s fun t => stoppedWith s t { StopRec.none with code := 0x0801 })

/-- Generation slots built, and commits completed or left undecided: `Claims.SlotBuiltRow`, `Claims.CommitEndRows`. -/
def Obligations.GenerationRows : Prop := Claims.SlotBuiltRow ∧ Claims.CommitEndRows

/-! ### Beats and ring frames -/

/-- Every beat edge advances the position by one, whatever entries run at it (R530, R536). -/
def Sys2Proof.Claims.BeatAdvancesPosition : Prop :=
  ∀ (s : State), s.power.pg = true → completes .beatEdge s fun t => t.trd.tpos = (s.trd.tpos + 1) % 2 ^ 64

/-- At a beat edge a vote whose sampling position is the present one is sampled READY or NOT_READY (R409); due KNOT_ADD and SAMPLE entries
run once and are cleared, or advance by their period (R535, R536). -/
def Sys2Proof.Claims.BeatEdgeRow : Prop :=
  ∀ (s : State), s.power.pg = true →
    (∀ i e, s.evt.entries = [(i, e)] → e.valid = true → s.paused = false → s.job.state = .loaded → s.started = true →
      s.trd.resume = none → s.mgr.plan = none → s.onRing = false → s.evt.carried = [] →
      let pos := (s.jobPos + 1) % 2 ^ 64
      let next := if e.period = 0 then [] else [(i, { e with pos := (e.pos + e.period) % 2 ^ 64 })]
      (∀ m, e.action = actCOMMIT → s.job.mapping = some m → 0 < m.voteLead → m.voteLead < 2 ^ 63 → e.pos = (pos + m.voteLead) % 2 ^ 64 →
        completes .beatEdge s fun t =>
          t.gen.vote = some ⟨e.pos, s.commits, s.voteReady⟩ ∧ t.gen.lastVote = s.voteReady ∧ t.evt = s.evt) ∧
      (e.action = actKNOT_ADD → e.pos = pos → s.knots.wf Knot.reset = true →
        completes .beatEdge s fun t =>
          (t.knot (e.arg0.toNat % 8192)).value = (s.knot (e.arg0.toNat % 8192)).value + e.arg1 ∧ t.evt.entries = next) ∧
      (e.action = actSAMPLE → e.pos = pos →
        completes .beatEdge s fun t =>
          t.trd.sample = e.arg0.setWidth 32 ∧ t.evt.entries = next
          ∧ ∀ p, s.pagePresent p = true → (t.page p).snap = (s.page p).ctr))

/-- The beat edge: position, vote sampling and event-table entries: `Claims.BeatAdvancesPosition`, `Claims.BeatEdgeRow`. -/
def Obligations.BeatRows : Prop := Claims.BeatAdvancesPosition ∧ Claims.BeatEdgeRow

/-- A VOTE frame leaves a worker with ALL_READY cleared unless its own vote for that position is READY and its job LOADED, and with
ANY_STOPPED set where its job has stopped, and a worker without a COMMIT entry for that position counts a NOT_READY vote; a TALLY leaves a
ring manager with ALL_READY cleared unless its ring voted READY. The frame that leaves carries a good CRC (R520, R521, R539, R555). -/
def Obligations.VoteRows : Prop :=
  ∀ (s : State) (f : TFrame),
    (atWorker s { f with op := opVOTE } → s.isWorker = true → s.trd.closed = false →
      completes (.vote f) s fun t =>
        (∃ g, t.trd.passed = some g ∧ g.good = true ∧ g.pos = f.pos ∧ g.op = opVOTE ∧ g.arg = f.arg
          ∧ bit g.flags.toNat 0 = (bit f.flags.toNat 0 && s.votesReady f.arg)
          ∧ bit g.flags.toNat 1 = (bit f.flags.toNat 1 || s.job.state == .stopped))
        ∧ ((∀ ie ∈ s.evt.entries, ie.2.valid = true → ie.2.action = actCOMMIT → ie.2.pos % 4096 ≠ f.arg) →
            t.gen = { s.gen with lastVote := false }
            ∧ (t.page pgTRD).counter 6 = satAdd (2 ^ ctrWidth pgTRD 6 - 1) ((s.page pgTRD).counter 6) 1)) ∧
    (∀ pl, s.mgr.plan = some pl → s.headsTrunk = false → s.workerRole = false → s.power.pg = true → s.onRing = true → f.trunk = true →
      ({ f with op := opTALLY } : TFrame).good = true →
      completes (.tally f) s fun t => ∃ g, t.trd.passed = some g ∧ g.good = true ∧ g.pos = f.pos ∧ g.op = opTALLY ∧ g.arg = f.arg
        ∧ bit g.flags.toNat 0 = (bit f.flags.toNat 0 && (match s.trd.headVote with
            | some h => h.ringReady == some true && h.pos % 4096 == f.arg
            | none => false)))

/-- The other ring commands at a worker: STOP stops its job with JOB_RESTART; BYPASS of its own position begins to close its switch and
UNBYPASS to open it, if nothing else holds it closed, and of a position upstream moves its arrival by 23 ns; NOP corrects the position,
but not on the local beat (R522, R525, R527, R530, R531). The model's readings: one correction of 23,000 ps for each change of a position, and no
change for a switch turned back on its way (log entry 51). -/
def Sys2Proof.Claims.RingCommandRows : Prop :=
  ∀ (s : State) (f : TFrame),
    (atWorker s { f with op := opSTOP } → s.jobLive = true →
      completes (.stop f) s fun t => stoppedWith s t { StopRec.none with code := 0x0803 }) ∧
    (atWorker s { f with op := opBYPASS } →
      (f.arg % 128 = s.trd.pos → s.trd.closed = false →
        completes (.bypass f) s fun t => t.trd.closing = some true ∧ t.trd.byCommand = true ∧ t.trd.arrival = s.trd.arrival) ∧
      (f.arg % 128 < s.trd.pos → s.trd.lastByp.get 0 (f.arg % 128) ≠ 1 →
        completes (.bypass f) s fun t => t.trd.arrival = s.trd.arrival - 23000 ∧ t.trd.closing = s.trd.closing)) ∧
    (atWorker s { f with op := opUNBYPASS } →
      (f.arg % 128 = s.trd.pos → s.trd.closed = true → s.trd.byCtl = false → s.trd.holdLost = false →
        completes (.unbypass f) s fun t => t.trd.closing = some false ∧ t.trd.byCommand = false) ∧
      (f.arg % 128 < s.trd.pos → s.trd.lastByp.get 0 (f.arg % 128) ≠ 2 →
        completes (.unbypass f) s fun t => t.trd.arrival = s.trd.arrival + 23000 ∧ t.trd.closing = s.trd.closing)) ∧
    (s.power.pg = true → s.mgr.plan = none → s.onRing = true → f.trunk = false → ({ f with op := opNOP } : TFrame).good = true →
      completes (.nop f) s fun t =>
        t.trd.tpos = (if s.soloBeat then s.trd.tpos else (f.pos.toNat + 2 ^ 64 - 1) % 2 ^ 64)
        ∧ t.trd.frame = some { f with op := opNOP } ∧ t.trd.goodRun = s.trd.goodRun + 1
        ∧ t.job = s.job ∧ t.knots = s.knots ∧ t.mem = s.mem)

/-- The ring interface itself: lock takes it from DOWN to LOCK where the module stands in a ring; the eighth good frame in LOCK frames it; 64 beats without a good frame lose
it and stop a worker's job; the bypass switch completes the change it has begun, and one that was turned back on its way raises nothing; a
hold that is not refreshed closes it (R524, R526, R531, R532; of the switch turned back and the hold's mark, log entry 51). -/
def Sys2Proof.Claims.RingInterfaceRows : Prop :=
  ∀ (s : State),
    (s.trd.link = .down → s.power.pg = true →
      completes .ringLock s fun t => t = if s.trd.ringIn then { s with trd := { s.trd with link := .lock, goodRun := 0 } } else s) ∧
    (∀ f : TFrame, ({ f with op := opNOP } : TFrame).good = true → f.trunk = false → s.power.pg = true → s.mgr.plan = none →
      s.trd.link = .lock → s.trd.goodRun = 7 → s.trd.compensated = false →
      completes (.nop f) s fun t =>
        t.trd.link = .framed ∧ t.trd.tpos = if s.soloBeat then s.trd.tpos else (f.pos.toNat + 2 ^ 64 - 1) % 2 ^ 64) ∧
    (s.onRing = true → 64 ≤ s.trd.missedRun →
      completes .treadleLost s (fun t => t.trd.link = .lost ∧ t.trd.goodRun = 0 ∧ raised t pgTRD 1 ∧ t.mem = s.mem) ∧
      (s.workerRole = true → s.soloJob = false → s.jobLive = true →
        completes .treadleLost s fun t => stoppedWith s t { StopRec.none with code := 0x0802 })) ∧
    (∀ b, s.trd.closing = some b →
      completes .bypassSwitchChange s fun t =>
        t.trd = { s.trd with closing := none, closed := b } ∧ (s.trd.closed ≠ b → raised t pgTRD 3)
        ∧ (s.trd.closed = b → t.pages = s.pages) ∧ ({ s with trd := t.trd } : State).notesOnly t) ∧
    completes .ringHoldExpiry s (fun t =>
      t.trd.holdLost = true ∧ (s.trd.closed = false → t.trd.closing = some true) ∧ t = { s with trd := t.trd })

/-- Ring commands and the ring interface (readings of the model: log 51): `Claims.RingCommandRows`, `Claims.RingInterfaceRows`. -/
def Obligations.RingRows : Prop := Claims.RingCommandRows ∧ Claims.RingInterfaceRows



/-! ### Sessions -/

/-- A sequenced packet of any message row that arrives next in order on an OPEN session is taken into the sequence once and its message
handed to its user, whatever the row; an acknowledgement leaves at the 16th that owes one (R476, R477, R479, R493). -/
def Sys2Proof.Claims.PacketDelivery : Prop :=
  ∀ (s : State) (c : Instr) (p : Packet) (typ i : Nat), sequencedRow c = some (p, typ) → inSequence s p typ i →
    exec c s = .next (afterDelivery (State.deliverMsg (inbox s p typ i) i ⟨typ, p.cmd, p.payload⟩) i (s.session i).id)

/-- A packet whose sequence number was received before changes nothing but counters, records and messages: it is acknowledged again and
not delivered (R476, R477); while the module is paused BULK_DATA and TILE_SEG are discarded without an answer (R586). -/
def Sys2Proof.Claims.DuplicatePackets : Prop :=
  ∀ (s : State) (c : Instr) (p : Packet) (typ i : Nat), sequencedRow c = some (p, typ) → onSlot s p typ i →
    (s.session i).state = .OP → p.epoch = (s.session i).epoch → p.seq ≤ (s.session i).rxAck → p.flags.getLsbD 0 = false →
    0x0100 ≤ typ → hasKey (s.session i) →
    (s.paused = false ∨ (typ ≠ 0x0300 ∧ typ ≠ 0x0400) → completes c s fun t => s.notesOnly t ∧ sends s t 0x0006 (s.session i).addr) ∧
    (s.paused = true → typ = 0x0300 ∨ typ = 0x0400 → completes c s fun t => s.notesOnly t ∧ t.mrn.out = s.mrn.out)

/-- A packet in sequence is delivered once; a duplicate is acknowledged and not delivered: `Claims.PacketDelivery`, `Claims.DuplicatePackets`. -/
def Obligations.PacketDelivery : Prop := Claims.PacketDelivery ∧ Claims.DuplicatePackets

/-- Opening: a HELLO of a peer whose rank the table knows gets a slot that is OPEN at epoch 1 and OPEN_OK, one for a CONTROL session a slot
that is OPENING and CHALLENGE; a PROVE that verifies opens the CONTROL session with its direction keys, one that does not ends it; OPEN_OK
opens the opener's session; OPEN_REFUSED releases its slot (R470, R483–R488). -/
def Obligations.SessionOpening : Prop :=
  ∀ (s : State) (p : Packet),
    let plane := portPlane p.port
    let kind := leAt p.payload 0 1
    let i0 := s.freeSlot (planeEngine plane)
    (s.mrn.table = none → s.takesPackets p 0x0001 = true → p.malformed 0x0001 = false → s.lockedOut p.src = false → s.trust.recovery = false →
      s.helloSeen p = none → s.kindFull kind plane = false → s.mrn.sessions.find i0 = none →
      (kind = 0 → s.trust.fuses.lc ≠ 4 →
        completes (.hello p) s fun t =>
          (t.session i0).state = .OG ∧ (t.session i0).kind = 0 ∧ (t.session i0).addr = p.src ∧ (t.session i0).opener = false
          ∧ sends s t 0x0002 p.src) ∧
      ((kind = 1 ∨ kind = 3) → s.job.unsent = [] → s.knowsPeer kind (leAt p.payload 24 2) p.src = true →
        (∀ kv ∈ s.mrn.sessions, kv.2.kind = kind → kv.2.rank ≠ leAt p.payload 24 2) →
        completes (.hello p) s fun t =>
          (t.session i0).state = .OP ∧ (t.session i0).kind = kind ∧ (t.session i0).epoch = 1 ∧ (t.session i0).addr = p.src
          ∧ (t.session i0).rank = leAt p.payload 24 2 ∧ sends s t 0x0004 p.src)) ∧
    (∀ i, onSlot s p 0x0003 i → (s.session i).state = .OG → (s.session i).kind = 0 → (s.session i).opener = false →
      (∀ key, s.proofKey (leAt p.payload 0 1) = some key → p.payload.length = 115 →
          edVerify key (s.session i).transcript (p.payload.drop 1) = true →
        let k := directionKeys (x448 (fitBytes 56 (Config.entropy (s.session i).secret 56)) (s.session i).peerKey) (s.session i).transcript
        completes (.prove p) s fun t =>
          (t.session i).state = .OP ∧ (t.session i).epoch = 1 ∧ (t.session i).keyRx = k.1 ∧ (t.session i).keyTx = k.2
          ∧ sends s t 0x0004 (s.session i).addr) ∧
      (s.proofKey (leAt p.payload 0 1) = none → s.mrn.sessions.wf Session.fresh = true →
        completes (.prove p) s fun t => t.session i = Session.fresh ∧ raised t (pgMRN (s.session i).engine) 1)) ∧
    (∀ i, onSlot s p 0x0004 i → (s.session i).state = .OG → (s.session i).opener = true → (s.session i).kind ≠ 3 →
        ((s.session i).kind = 2 → ∃ o, s.findOp (s.session i).opId = some o ∧ o.live = true) →
        (s.session i).queued = [] → (s.session i).txNext ≤ 2 ^ 48 - 258 →
      completes (.openOk p) s fun t =>
        t.session i = { s.session i with state := .OP, epoch := 1, peerId := leAt p.payload 0 4 }) ∧
    (∀ i, onSlot s p 0x0005 i → (s.session i).state = .OG → (s.session i).opener = true → (s.session i).kind = 1 →
        s.mrn.sessions.wf Session.fresh = true →
      completes (.openRefused p) s fun t => t.session i = Session.fresh ∧ raised t (pgMRN (s.session i).engine) 0)

/-- On an OPEN session an ACK takes what it names off the send list, a PROBE is acknowledged at once, a RESYNC to a higher epoch is adopted
with both sequences restarted and answered, and CLOSE is answered with CLOSE_ACK, before anything else leaves, and ends the session;
RESYNC_ACK of the epoch ends a resync, and CLOSE_ACK releases the slot (R476–R481, R488–R490). A CONTROL session without its key answers
nothing (the model's reading, assumption 127). -/
def Sys2Proof.Claims.SessionControl : Prop :=
  ∀ (s : State) (p : Packet) (i : Nat),
    let x := s.session i
    p.ce = false → s.paused = false → hasKey x →
    (onSlot s p 0x0006 i → x.state = .OP → p.epoch = x.epoch → p.flags.getLsbD 0 = true → p.flags.getLsbD 3 = false →
      p.ack < x.txNext → p.sack = 0 → x.queued = [] → x.txNext ≤ 2 ^ 48 - 258 → (∀ m ∈ x.out, m.sacked = false ∧ m.above = 0) →
      completes (.ack p) s fun t =>
        (t.session i).out = x.out.filter (fun m => decide (p.ack < m.seq)) ∧ (t.session i).deadRunning = false
        ∧ (t.session i).state = .OP) ∧
    (onSlot s p 0x0007 i → x.state = .OP → p.epoch = x.epoch → p.flags.getLsbD 0 = false →
      completes (.probe p) s fun t => sends s t 0x0006 x.addr ∧ s.notesOnly t) ∧
    (onSlot s p 0x0008 i → x.state = .OP → x.epoch < leAt p.payload 0 4 → x.out = [] → x.queued = [] →
      completes (.resync p) s fun t =>
        (t.session i).epoch = leAt p.payload 0 4 ∧ (t.session i).txNext = 1 ∧ (t.session i).rxAck = 0 ∧ (t.session i).state = .OP
        ∧ sends s t 0x0009 x.addr) ∧
    (onSlot s p 0x0009 i → x.state = .RS → leAt p.payload 0 4 = x.epoch → x.out = [] → x.queued = [] →
      completes (.resyncAck p) s fun t => (t.session i).state = .OP ∧ (t.session i).txNext = 1 ∧ (t.session i).rxAck = 0) ∧
    (onSlot s p 0x000A i → p.epoch = x.epoch → p.flags.getLsbD 0 = false → s.mrn.sessions.wf Session.fresh = true →
      (x.state = .CG → completes (.close p) s fun t => t.session i = Session.fresh ∧ sends s t 0x000B x.addr) ∧
      (x.state = .OP → x.kind = 0 → completes (.close p) s fun t =>
        t.session i = Session.fresh ∧ raised t (pgMRN x.engine) 0
        ∧ ∃ q rest, t.mrn.out = s.mrn.out ++ q :: rest ∧ q.typ = 0x000B ∧ q.addr = x.addr)) ∧
    (onSlot s p 0x000B i → p.epoch = x.epoch → x.state = .CG → s.mrn.sessions.wf Session.fresh = true →
      completes (.closeAck p) s fun t => t.session i = Session.fresh)

/-- The timers of a session under the default table: T_SUS suspects an OPEN session and probes; T_DEAD ends a suspect one; T_OPEN ends an opening and releases a
closing one; idle, HELLO, RESYNC, CLOSE and the acknowledgement delay each send their packet again; the retransmission timer sends the
oldest unacknowledged packet again (R479, R481, R483, R488–R490). Under a replacement table T_SUS moves the session to the state of that
table's cell of event 8 (R492). A CONTROL session without its key sends no probe (the model's reading of R475, assumption 127). -/
def Sys2Proof.Claims.SessionTimers : Prop :=
  ∀ (s : State) (i : Nat),
    let x := s.session i
    (∀ tb, s.mrn.table = some tb → s.mrn.sessions.wf Session.fresh = true → (tb.cell 8 x.state).acts = [] →
      completes (.tSusExpiry i) s fun t => (t.session i).state = (tb.cell 8 x.state).next ∧ ∀ j, j ≠ i → t.session j = s.session j) ∧
    (x.muted = true → x.state = .OP → exec (.idleProbe i) s = .next s) ∧
    (s.mrn.table = none →
    (x.state = .OP → hasKey x →
      completes (.tSusExpiry i) s (fun t => (t.session i).state = .SU ∧ (t.session i).deadRunning = true ∧ sends s t 0x0007 x.addr) ∧
      completes (.idleProbe i) s (fun t => sends s t 0x0007 x.addr ∧ s.notesOnly t) ∧
      (x.unackedRx ≠ 0 → completes (.ackDelayExpiry i) s fun t => sends s t 0x0006 x.addr ∧ s.notesOnly t) ∧
      (∀ m, x.out.find? (fun m => !m.sacked) = some m →
        completes (.retransmissionTimeout i) s fun t => sends s t m.msg.typ x.addr ∧ s.notesOnly t)) ∧
    (s.mrn.sessions.wf Session.fresh = true →
      (x.deadRunning = true → x.state = .SU → x.kind = 0 →
        completes (.tDeadExpiry i) s fun t => t.session i = Session.fresh ∧ raised t (pgMRN x.engine) 0) ∧
      (x.state = .OG → x.kind = 0 → completes (.tOpenExpiry i) s fun t => t.session i = Session.fresh ∧ raised t (pgMRN x.engine) 0) ∧
      (x.state = .CG → completes (.tOpenExpiry i) s fun t => t.session i = Session.fresh)) ∧
    (x.state = .OG → x.opener = true → hasKey x → completes (.helloRepeat i) s fun t => sends s t 0x0001 x.addr ∧ s.notesOnly t) ∧
    (x.state = .RS → hasKey x → completes (.resyncRepeat i) s fun t => sends s t 0x0008 x.addr ∧ s.notesOnly t) ∧
    (x.state = .CG → hasKey x → completes (.closeRepeat i) s fun t => sends s t 0x000A x.addr ∧ s.notesOnly t))

/-- Control packets of a session and its timers (reading of the model: log 127): `Claims.SessionControl`, `Claims.SessionTimers`. -/
def Obligations.SessionControl : Prop := Claims.SessionControl ∧ Claims.SessionTimers

/-! ### Membership -/

/-- Membership messages that arrive in sequence: a worker applies a one-part ROSTER and marks the rank of a FAILED notice, a spare keeps
what TAKEOVER names, and the top manager holds the job on the STATUS that asks for it; a ring manager relays a HEARTBEAT upward (R545–R550; the manager's reading of a
STATUS is the model's, log entry 52). -/
def Sys2Proof.Claims.MembershipRows : Prop :=
  ∀ (s : State) (p : Packet) (i : Nat),
    let x := s.session i
    let b := p.payload
    (x.opener = true → s.mgr.plan = none →
      (∀ r sched mem, inSequence s p 0x0200 i → (∀ kv ∈ s.mrn.sessions, kv.2.kind ≠ 3) → s.job.unsent = [] → rosterPart b = some r →
        r.parts = 1 → s.trd.parts = [] → runsOf [(r.schedFirst, r.sched)] = some sched → runsOf [(r.memFirst, r.mem)] = some mem →
        bit (leAt b 0x14 4) 0 = false → bit (leAt b 0x14 4) 1 = false →
        completes (.roster p) s fun t =>
          t.trd = { s.trd with
            ring := leAt b 4 1, pos := leAt b 5 1, rank := leAt b 6 2, arrival := leAt b 8 4, target := leAt b 12 4,
            voteLead := leAt b 0x10 2, members := mem, version := leAt b 0 4, compensated := true,
            link := if s.trd.link = .framed then .synced else s.trd.link }
          ∧ ({ s with trd := t.trd } : State).notesOnly t) ∧
      (inSequence s p 0x0202 i → (∀ kv ∈ s.mrn.sessions, kv.2.kind ≠ 3) →
        completes (.failed p) s fun t =>
          t.trd.members = s.trd.members.map (fun m =>
            if m.ring == leAt b 2 1 && m.pos == leAt b 3 1 then { m with state := 4 } else m)
          ∧ ({ s with trd := t.trd } : State).notesOnly t) ∧
      (inSequence s p 0x0203 i →
        completes (.takeover p) s fun t =>
          t.mgr = { s.mgr with takeover := some (leAt b 0 2, leAt b 4 4, BitVec.ofNat 64 (leAt b 8 8)) }
          ∧ (s.pagePresent pgMGR = true → raised t pgMGR 1) ∧ ({ s with mgr := t.mgr } : State).notesOnly t)) ∧
    (∀ pl, x.opener = false → s.mgr.plan = some pl →
      (∀ m, inSequence s p 0x0204 i → pl.top = true → pl.trunk = false → s.sessionMember x = some m → leAt b 0 2 = 7 →
        s.mgr.state ≠ .held →
        completes (.status p) s fun t =>
          t.mgr = { s.mgr with state := .held, collateral := false } ∧ raised t pgMGR 3
          ∧ (∃ c ∈ t.trd.cmds, c.op = opSTOP) ∧ ({ s with mgr := t.mgr, trd := t.trd } : State).notesOnly t) ∧
      (∀ j, inSequence s p 0x0201 i → pl.top = false → s.topSession = some j →
        completes (.heartbeat p) s fun t => newest t j ⟨0x0201, 0, b⟩ ∧ s.notesOnly t))

/-- The manager's and the worker's own acts: HEARTBEAT each millisecond on the session to the manager, the hold when no failure follows a
collateral stop, and the FAILED entry that becomes a spare in ABSENT, which at the top manager is a new version of the table that every
module is sent (R545, R548, R552). -/
def Sys2Proof.Claims.MembershipTimers : Prop :=
  ∀ (s : State),
    (∀ i, s.mrn.table = none → s.mgrSession = some i →
      completes .heartbeatTimer s fun t =>
        newest t i ⟨0x0201, 0, leBytes 8 s.trd.tpos ++ leBytes 8 s.jobPos ++ leBytes 8 s.commits ++ leBytes 1 s.job.state.code
          ++ leBytes 1 s.linkCode ++ zeros 6⟩ ∧ s.notesOnly t) ∧
    (s.mgr.collateral = true → s.mgr.state ≠ .held →
      completes .collateralWaitExpiry s fun t => t.mgr.state = .held ∧ t.mgr.collateral = false ∧ raised t pgMGR 3) ∧
    (∀ m, s.memberAt s.mgr.selRing s.mgr.selPos = some m → m.state = 4 →
      let g : Manager := { s.mgr with members := s.mgr.members.map fun x =>
        if x.ring == m.ring && x.pos == m.pos then { x with rank := 0xFFFF, spare := true, state := 0 } else x }
      (s.mgr.plan.map (·.top) ≠ some true → completes .makeSpare s fun t => t = { s with mgr := g }) ∧
      (s.mgr.plan.map (·.top) = some true →
        completes .makeSpare s fun t =>
          let v := (s.mgr.version + 1) % 2 ^ 32
          t.mgr = { g with version := v, sent := t.mgr.sent } ∧ ({ s with mgr := t.mgr } : State).notesOnly t
          ∧ ∀ x ∈ g.members, t.mgr.sent.find (memberKey x.ring x.pos) = some (v, false, none)))

/-- Membership messages, heartbeats and the making of spares (readings of the model: log 52): `Claims.MembershipRows`, `Claims.MembershipTimers`. -/
def Obligations.MembershipRows : Prop := Claims.MembershipRows ∧ Claims.MembershipTimers



/-! ### CONTROL commands -/

/-- A second copy of a command that has completed, with the same content, changes nothing but counters and messages, and is answered with
the status and data that the first got; one with other content is refused with CMD_MISMATCH and raises its event (R495–R497). -/
def Obligations.ExactlyOnce : Prop :=
  ∀ (s : State) (c : Instr) (p : Packet) (typ i : Nat) (e : CacheEntry), sequencedRow c = some (p, typ) → inSequence s p typ i →
    typ / 256 = 1 → (s.session i).due = [] → s.sessionById (s.session i).id = some i →
    s.mrn.cache.find? (fun e => e.cmd == p.cmd) = some e → s.mrn.admission = [] → s.job.attests = [] →
    (e.digest = cmdDigest typ p.payload → e.running = false →
      completes c s fun t =>
        s.notesOnly t ∧ t.mrn.cache = s.mrn.cache ∧ newest t i ⟨0x0110, p.cmd, leBytes 2 e.status.toNat ++ zeros 2 ++ e.result⟩) ∧
    (e.digest ≠ cmdDigest typ p.payload →
      completes c s fun t => s.notesOnly t ∧ t.mrn.cache = s.mrn.cache ∧ raised t (pgMRN 0) 2)

/-- IDENTIFY answers the part string, capability words, boot count, job serial and identity digest; REG_READ the words of one page in
ascending order, with what a read does besides; REG_WRITE writes its words in ascending order; SUBSCRIBE sets the session's mask for the
page (R493, R499, R500). -/
def Obligations.PlainCommands : Prop :=
  ∀ (s : State) (p : Packet) (i : Nat),
    let b := p.payload
    let a := leAt b 8 8
    let n := leAt b 16 4
    let page := (a - registerBase) / 4096
    (firstCopy s p 0x0100 i → completes (.identify p) s fun t => s.notesOnly t ∧ resulted t i p.cmd 0 s.identifyData) ∧
    (firstCopy s p 0x0101 i → b.length = 20 → 1 ≤ n → n ≤ 64 → s.accessError a n = none →
      let r := State.readWords page n (a % 4096) (running s p 0x0101 i)
      completes (.regRead p) s fun t => r.1.notesOnly t ∧ resulted t i p.cmd 0 r.2) ∧
    (firstCopy s p 0x0102 i → b.length = 20 + 4 * n → 1 ≤ n → n ≤ 64 → s.accessError a n = none →
      let w := State.writeWords page p.cmd (b.drop 20) (a % 4096) n (running s p 0x0102 i)
      w.trust.fuses.lc = s.trust.fuses.lc → w.mrn.admission = [] → w.job.attests = [] →
      completes (.regWrite p) s fun t =>
        w.notesOnly t ∧ ∃ e ∈ t.mrn.cache, e.cmd = p.cmd ∧ e.running = false ∧ e.status = 0 ∧ e.result = []) ∧
    (firstCopy s p 0x0103 i → b.length = 16 → leAt b 8 4 < pageCount →
      completes (.subscribe p) s fun t =>
        s.notesOnly t ∧ (t.session i).subs = (s.session i).subs.set 0 (leAt b 8 4) (BitVec.ofNat 32 (leAt b 12 4))
        ∧ resulted t i p.cmd 0 [])

/-- JOB_LOAD of a bundle that passes its checks, with its dies awake and no clear in progress, loads it in one step: serial, mapping and
stations are the bundle's and the job is LOADED, or RESTORE_WAIT where it restores; JOB_UNLOAD leaves no job, station or
waiter, and of the queues their counts alone (R2, R376, R377, R637, R692). -/
def Obligations.JobCommands : Prop :=
  ∀ (s : State) (p : Packet) (i : Nat),
    (∀ (b : JobBundle) o, s.job.bundles = [] → firstCopy { s with job := { s.job with bundles := [⟨p.cmd, b⟩] } } p 0x0104 i →
      p.payload.length = 16 → s.findOp (BitVec.ofNat 64 (leAt p.payload 8 8)) = some o → o.obj = .jobBundle → o.state = .done →
      let u : State := running { s with job := { s.job with bundles := [] } } p 0x0104 i
      u.loadRefusal b = none → b.plan = none → (∀ d, d < 4 → (s.die d).awake = true) → s.clearing = false → b.colls = [] →
      completes (.jobLoad p b) s fun t =>
        t.job.state = (match b.ckpt with | some c => if bit c.flags 0 then .restoreWait else .loaded | none => .loaded)
        ∧ t.job.serial = s.job.serial + 1 ∧ t.job.mapping = b.mapping ∧ t.job.ckpt = b.ckpt ∧ t.gen.applied = none
        ∧ t.stations = b.images.foldl (fun (m : Tbl Station) g => m.put g.number ⟨g, [], [], [], [], []⟩) []
        ∧ t.sp = s.sp ∧ raised t pgMOD 0 ∧ resulted t i p.cmd 0 []) ∧
    (firstCopy s p 0x0105 i → s.snap.state ≠ .opened →
      completes (.jobUnload p) s fun t =>
        t.job.state = .none ∧ t.job.serial = s.job.serial ∧ t.sp = [] ∧ t.stations = [] ∧ t.waiters = []
        ∧ (∀ kv ∈ t.queues, ∃ q, (kv.1, q) ∈ s.queues ∧ kv.2 = q.counts)
        ∧ t.mem = s.mem ∧ raised t pgMOD 2 ∧ resulted t i p.cmd 0 [])

/-- BULK_CREATE enters an operation whose id is the result: one that receives an image, a job bundle or a restore, or that sends a
snapshot; for DUMP the operation sends the held dump, for TRACE the frozen extended store (R503, R604, R654, R656). -/
def Sys2Proof.Claims.BulkCreateCommands : Prop :=
  ∀ (s : State) (p : Packet) (i : Nat), firstCopy s p 0x0106 i → leAt p.payload 10 1 ≤ 1 →
    let b := p.payload
    let made (c : Instr) (obj : BulkObj) : Prop := completes c s fun t =>
      t.mrn.ops = s.mrn.ops ++ [s.newOp obj b] ∧ s.notesOnly t ∧ resulted t i p.cmd 0 (leBytes 8 (s.newOp obj b).id.toNat)
    (leAt b 9 1 = 1 → leAt b 8 1 = 0 → 29 ≤ b.length → made (.bulkCreateSnapshot p) .snapshot) ∧
    (leAt b 9 1 = 2 → leAt b 8 1 = 1 → 37 ≤ b.length → s.trust.tamper = 0 → s.job.state = .none → made (.bulkCreateImage p) .image) ∧
    (leAt b 9 1 = 3 → leAt b 8 1 = 1 → 37 ≤ b.length → made (.bulkCreateJobBundle p) .jobBundle) ∧
    (leAt b 9 1 = 4 → leAt b 8 1 = 1 → 45 ≤ b.length → made (.bulkCreateRestore p) .restore) ∧
    (∀ d len, leAt b 9 1 = 5 → leAt b 8 1 = 0 → 29 ≤ b.length → s.trace.held = some (d, len) →
      (∀ o ∈ s.mrn.ops, o.id ≠ (s.newOp .dump b).id) →
      completes (.bulkCreateDump p) s fun t =>
        opIs t (s.newOp .dump b).id (fun o => o.obj = .dump ∧ o.stream = s.loadNew s.trace.dumpBase len ∧ o.length = o.stream.length)
        ∧ t.trace.held = s.trace.held) ∧
    (leAt b 9 1 = 6 → leAt b 8 1 = 0 → 29 ≤ b.length → s.isX = true → s.bad = [] →
      (∀ o ∈ s.mrn.ops, o.id ≠ (s.newOp .trace b).id) →
      completes (.bulkCreateTrace p) s fun t =>
        opIs t (s.newOp .trace b).id (fun o => o.obj = .trace ∧ o.length = o.stream.length) ∧ t.trace.xt.frozen = true)

/-- BULK_CANCEL ends a live operation with an error; DUMP stops the job, freezes the rings, counts its snapshots and holds the dump; ATTEST
answers the signed report over the present state and the nonce (R509, R609, R610, R655). -/
def Sys2Proof.Claims.EndingCommands : Prop :=
  ∀ (s : State) (p : Packet) (i : Nat),
    let b := p.payload
    (∀ o, firstCopy s p 0x0107 i → b.length = 16 → s.findOp (BitVec.ofNat 64 (leAt b 8 8)) = some o → o.live = true →
      o.obj = .jobBundle → o.session = none → o.window = [] →
      completes (.bulkCancel p) s fun t =>
        opIs t o.id (fun q => q.state = .failed ∧ q.err = Config.cancelCode) ∧ s.notesOnly t ∧ resulted t i p.cmd 0 []) ∧
    (firstCopy s p 0x0108 i → b.length = 12 → s.trace.held = none → s.trace.phase = .armed →
      completes (.dump p) s fun t =>
        (∃ len, t.trace.held = some (s.mrn.bootCount * 2 ^ 32 + s.trace.dumpSeq, len)) ∧ t.trace.phase = .frozen
        ∧ (s.job.state = .loaded → t.job.state = .stopped ∧ t.job.stop.code = 0x0904)
        ∧ (∀ page, s.pagePresent page = true → (t.page page).snapSeq = ((s.page page).snapSeq + 1) % 2 ^ 16)
        ∧ ∃ e ∈ t.mrn.cache, e.cmd = p.cmd ∧ e.running = false ∧ e.status = 0) ∧
    (firstCopy s p 0x0109 i → b.length = 40 → s.trust.fuses.lc ≠ 0 → s.jobBusy = false →
      completes (.attest p) s fun t => s.notesOnly t ∧ resulted t i p.cmd 0 (s.report (part b 8 32)))

/-- BULK_CREATE of each kind, BULK_CANCEL, DUMP and ATTEST: `Claims.BulkCreateCommands`, `Claims.EndingCommands`. -/
def Obligations.OperationCommands : Prop := Claims.BulkCreateCommands ∧ Claims.EndingCommands

/-! ### Long operations -/

/-- On the session of a receiving operation BULK_DATA places its chunk by offset and moves the journal over the longest prefix held, and
BULK_END completes a job bundle whose journal has reached its length with its CRC; on that of a sender BULK_JOURNAL frees the window, and
completes it at the end. BULK_ABORT ends either (R504–R509). -/
def Sys2Proof.Claims.BulkMessageRows : Prop :=
  ∀ (s : State) (p : Packet) (i : Nat) (o : BulkOp),
    let b := p.payload
    s.opOn i b = some o →
    (∀ bs, inSequence s p 0x0300 i → o.sends = false → o.obj = .jobBundle → o.ended = none → b.drop 24 = bs → bs.length = leAt b 20 4 →
      bs ≠ [] → bs.length ≤ 8192 → leAt b 8 8 % 8192 = 0 → (o.length = 0 ∨ leAt b 8 8 + bs.length ≤ o.length) →
      completes (.bulkData p) s fun t =>
        opIs t o.id (fun q =>
          q.data = o.data.setRun 0 (leAt b 8 8) bs ∧ q.got = joinRun (leAt b 8 8) (leAt b 8 8 + bs.length) o.got
          ∧ q.journal = max o.journal (BulkOp.prefix_ { o with got := q.got }) ∧ q.state = o.state)
        ∧ s.notesOnly t) ∧
    (inSequence s p 0x0302 i → o.sends = false → o.obj = .jobBundle → o.window = [] → leAt b 8 8 ≤ o.journal →
      (crc32c (o.bytes 0 (leAt b 8 8))).toNat = leAt b 16 4 →
      completes (.bulkEnd p) s fun t => opIs t o.id (fun q => q.state = .done ∧ q.err = 0) ∧ s.notesOnly t) ∧
    (inSequence s p 0x0301 i → o.sends = true → o.state = .bound → o.obj ≠ .dump → o.journal ≤ leAt b 8 8 → leAt b 8 8 ≤ o.top →
      completes (.bulkJournal p) s fun t => opIs t o.id (fun q =>
        q.journal = leAt b 8 8 ∧ (o.ended.isSome = true → o.length ≤ leAt b 8 8 → q.state = .done))
        ∧ ({ s with snap := { s.snap with used := t.snap.used } } : State).notesOnly t) ∧
    (inSequence s p 0x0303 i → o.obj = .jobBundle → o.window = [] →
      completes (.bulkAbort p) s fun t =>
        opIs t o.id (fun q => q.state = .failed ∧ q.err = BitVec.ofNat 16 (leAt b 8 2)) ∧ s.notesOnly t)

/-- The timers of long operations: a held one ends with SESSION_FAILED, a held sender repeats HELLO, a receiver whose journal has moved
reports it; a new second gives every session its allowance of EVENTs again, and with it, by the model's choice, the ports theirs of answers (R505,
R507, R632; log entry 87). -/
def Sys2Proof.Claims.BulkTimers : Prop :=
  ∀ (s : State) (id : W64) (o : BulkOp), s.findOp id = some o →
    (o.state = .held → o.obj = .jobBundle → o.session = none → o.window = [] →
      completes (.bulkHoldExpiry id) s fun t => opIs t id (fun q => q.state = .failed ∧ q.err = 0x050C) ∧ s.notesOnly t) ∧
    (s.mrn.table = none → o.state = .held → o.sends = true → o.session = none → s.kindFull 2 o.plane = false →
      (∀ kv ∈ s.mrn.sessions, kv.2.opId ≠ id) → s.mrn.sessions.find (s.freeSlot (planeEngine o.plane)) = none →
      completes (.bulkHelloRepeat id) s fun t =>
        sends s t 0x0001 o.peer ∧ opIs t id (fun q => q.state = .held ∧ q.session = some (s.freeSlot (planeEngine o.plane)))) ∧
    (∀ i, numbersLeft s → s.mrn.table = none → o.state = .bound → o.sends = false → o.journal ≠ o.journalSent → o.session = some i →
      completes (.bulkJournalTimer id) s fun t =>
        newest t i ⟨0x0301, 0, leBytes 8 id.toNat ++ leBytes 8 o.journal⟩ ∧ opIs t id (fun q => q.journalSent = o.journal)
        ∧ s.notesOnly t) ∧
    completes .eventRateInterval s (fun t => t.evtSent = [] ∧ t.mrn.sessions = s.mrn.sessions ∧ t.pages = s.pages
      ∧ ∀ q, (t.port q).answered = 0)

/-- Messages and timers of long operations (choice of the model: log 87): `Claims.BulkMessageRows`, `Claims.BulkTimers`. -/
def Obligations.OperationRows : Prop := Claims.BulkMessageRows ∧ Claims.BulkTimers



/-! ### Collectives -/

/-- A message of a collective arrives in sequence from a peer and names record `k`, which is `r` and whose instance runs (R452, R502). -/
def Sys2Proof.Claims.toInstance (s : State) (p : Packet) (typ i k : Nat) (r : CollRec) (id inst : Nat) : Prop :=
  inSequence s p typ i ∧ s.jobLive = true ∧ s.collOf id (s.session i).rank = some (k, r) ∧ (s.run k).active = true ∧ (s.run k).inst = inst

/-- Only runs of instances, messages that wait for a peer, single-bit errors that a read has corrected, and notes differ. -/
def Sys2Proof.Claims.runsOnly (s t : State) : Prop :=
  ({ s with soft := t.soft, job := { s.job with runs := t.job.runs, unsent := t.job.unsent } } : State).notesOnly t

/-- The image lengths that segments have named, with this segment's (R502). -/
def Sys2Proof.Claims.lensWith (u : CollRun) (rank : Nat) (g : Seg) : List (Nat × Nat × Nat × Nat) :=
  if u.lens.contains (rank, g.contrib, g.tile, g.len) then u.lens else (rank, g.contrib, g.tile, g.len) :: u.lens

/-- An image of at most 8,192 bytes as its one TILE_SEG (R501). -/
def Sys2Proof.Claims.oneSegment (id flags contrib inst tile : Nat) (img : Bytes) : Msg :=
  ⟨0x0400, 0, leBytes 2 id ++ leBytes 2 flags ++ leBytes 1 contrib ++ zeros 3 ++ leBytes 8 inst ++ leBytes 4 tile ++ leBytes 4 0
    ++ leBytes 4 img.length ++ leBytes 2 img.length ++ zeros 2 ++ img⟩

/-- The plane on which a tile's messages go. -/
def Sys2Proof.Claims.tilePlane (s : State) (tile : Nat) : Nat := if s.twoPlanes then tile % 2 else 0

/-- TILE_SEG: a segment that leaves its image incomplete is held. One that completes an image of an ALL_GATHER that passes its checks
writes the image where the record places it; the instance goes on, or ends once every tile is there. GRANT sends the granted tile, and
COUNT writes the number of images at CR_DST; all of this while no other record's reduction runs, which the message may let go on
(R451, R452, R455, R462, R501, R502). -/
def Obligations.CollectiveImageRows : Prop :=
  ∀ (s : State) (p : Packet) (i k : Nat) (r : CollRec), (s.run k).opened = [] → s.otherRuns k = [] →
    let b := p.payload
    let u := s.run k
    let rank := (s.session i).rank
    let g := Seg.parse b
    (toInstance s p 0x0400 i k r g.id g.inst → g.gather = false → s.segFits r u rank g = true → u.lenDiffers rank g = false →
      u.done.contains g.tile = false →
      (∀ l, placeSeg u.segs rank g = .part l →
        completes (.tileSeg p) s fun t => t.run k = { u with segs := l, lens := lensWith u rank g } ∧ runsOnly s t) ∧
      (∀ img l ct, placeSeg u.segs rank g = .whole img l → r.kind = some .allGather → checkColl r r.inFmt g.tile img = .ok ct →
        (∀ q, q < r.tiles → q ∉ u.done → q ≠ g.tile →
          completes (.tileSeg p) s fun t =>
            t.run k = { u with segs := l, lens := lensWith u rank g, done := g.tile :: u.done } ∧ t.mem = (s.putImage (s.destOf r g.tile) img).mem) ∧
        ((∀ q, q < r.tiles → q ∈ g.tile :: u.done) → completes (.tileSeg p) s fun t => (t.run k).active = false))) ∧
    (toInstance s p 0x0402 i k r (leAt b 0 2) (leAt b 2 8) → r.kind = some .reduceScatter → leAt b 14 4 = 1 → 0 < r.tiles →
      r.owner (leAt b 10 4) = some rank → u.sent.contains (leAt b 10 4) = false → s.nextGrant k r = none →
      (∃ q, q < r.tiles ∧ r.owner q ≠ some s.ownRank ∧ q ≠ leAt b 10 4 ∧ q ∉ u.sent) → r.mult = 1 →
      let tile := leAt b 10 4
      let img := s.imageAt (r.src + tile * r.srcStride)
      0 < img.length → img.length ≤ 8192 → ∀ j, s.peerSession rank (tilePlane s tile) = some j →
      completes (.grant p) s fun t =>
        t.run k = { u with sent := tile :: u.sent } ∧ newest t j (oneSegment r.id 0 0 u.inst tile img) ∧ runsOnly s t) ∧
    (toInstance s p 0x0407 i k r (leAt b 0 2) (leAt b 2 8) → r.kind = some .recv → leAt b 10 4 ≤ 65535 →
      (∀ q ∈ u.done, q < leAt b 10 4) → (∃ q, q < leAt b 10 4 ∧ q ∉ u.done) →
      completes (.count p) s fun t =>
        t.run k = { u with count := some (leAt b 10 4) } ∧ t.mem = (s.devicePut r.dst (leBytes 4 (leAt b 10 4)) none).mem)

/-- TILE_RESEND and CONTRIB_RETRY send the named image again (of a SEND where a station may read), CONTRIB_RETRY for the instance that it names. GATHER_REQ sends the tile asked for from the generation's slot, or
VERSION_GONE where no slot holds the generation; a GATHER_REQ that the module issues is kept until its answers are here, and leaves.
VERSION_GONE drops the gather, releases its pin and adds 2^32 to its completion knot; ABORT is noted on both engines and stops the job, or is
counted where it has stopped already (R415, R453, R455, R456, R459, R464, R512). The model's readings: a request is served for any instance that has
started (log entry 54), both RED pages note an end (56), request ids count from 1 and a pin lies on the slot that holds the generation (58). -/
def Obligations.CollectiveRequestRows : Prop :=
  ∀ (s : State) (p : Packet) (i : Nat),
    let b := p.payload
    let rank := (s.session i).rank
    (∀ k r j, inSequence s p 0x0401 i → s.jobLive = true → s.collOf (leAt b 0 2) rank = some (k, r) → s.startedInst k (leAt b 2 8) = true →
      leAt b 14 1 < r.mult → s.sendRefused r (leAt b 10 4) = none →
      let img := s.imageAt (s.sourceOf r (leAt b 14 1) (leAt b 10 4))
      0 < img.length → img.length ≤ 8192 → s.peerSession rank (tilePlane s (leAt b 10 4)) = some j →
      completes (.tileResend p) s fun t =>
        ({ s with soft := t.soft } : State).notesOnly t ∧ newest t j (oneSegment r.id 0 (leAt b 14 1) (leAt b 2 8) (leAt b 10 4) img)) ∧
    (∀ k r j, inSequence s p 0x0403 i → s.jobLive = true → s.collOf (leAt b 0 2) rank = some (k, r) → s.startedInst k (leAt b 2 8) = true →
      r.mult = 1 → r.owner (leAt b 10 4) = some rank →
      let img := s.imageAt (r.src + leAt b 10 4 * r.srcStride)
      0 < img.length → img.length ≤ 8192 → s.peerSession rank (tilePlane s (leAt b 10 4)) = some j →
      completes (.contribRetry p) s fun t =>
        ({ s with soft := t.soft } : State).notesOnly t ∧ newest t j (oneSegment r.id 0 0 (leAt b 2 8) (leAt b 10 4) img)) ∧
    (∀ j, inSequence s p 0x0404 i → s.jobLive = true →
      (s.gatherSlot (leAt b 12 2) = none → s.peerSession rank 0 = some j →
        completes (.gatherReq (.received p)) s fun t => newest t j ⟨0x0405, 0, leBytes 8 (leAt b 0 8)⟩ ∧ t.mem = s.mem ∧ t.sp = s.sp) ∧
      (∀ slot base m e, s.gatherSlot (leAt b 12 2) = some slot → s.genKnot = some base → s.job.mapping = some m →
        m.tensors.find? (fun e => e.tensor == leAt b 8 4) = some e → b.length = 18 →
        let img := s.imageAt (m.areas.getD slot 0 + e.fwdOff + leAt b 14 4 * e.stride)
        0 < img.length → img.length ≤ 8192 → s.peerSession rank (tilePlane s (leAt b 14 4)) = some j →
        completes (.gatherReq (.received p)) s fun t => newest t j (oneSegment 0 1 0 (leAt b 0 8) (leAt b 14 4) img))) ∧
    (∀ (g : GatherIssue) j, s.jobLive = true → s.paused = false → s.gatherSlot g.gen = none → g.owner ≤ s.ownRank →
      s.peerSession g.owner 0 = some j →
      completes (.gatherReq (.issued g)) s fun t =>
        (∃ x, t.job.gathers = s.job.gathers ++ [x] ∧ x.id = s.job.gatherSeq + 1 ∧ x.owner = g.owner ∧ x.due = g.tiles ∧ x.knot = g.knot)
        ∧ newest t j ⟨0x0404, 0, leBytes 8 (s.job.gatherSeq + 1) ++ leBytes 4 g.tensor ++ leBytes 2 g.gen
            ++ g.tiles.flatMap fun q => leBytes 4 q.1⟩
        ∧ ({ s with job := t.job } : State).notesOnly t) ∧
    (∀ x, inSequence s p 0x0405 i → s.jobLive = true → s.genKnot = none → s.knots.wf Knot.reset = true →
      s.job.gathers.find? (fun x => x.id == leAt b 0 8 && x.owner == rank) = some x →
      completes (.versionGone p) s fun t =>
        (∀ k, (t.knot k).value = (s.knot k).value + (if k = x.knot then 0x100000000 else 0) - (if x.pin = some k then 1 else 0))
        ∧ t.job.gathers = s.job.gathers.filter (fun y => y.id != x.id) ∧ t.mem = s.mem) ∧
    (inSequence s p 0x0406 i →
      (∀ k r, s.jobLive = true → s.collOf (leAt b 0 2) rank = some (k, r) →
        completes (.abort p) s fun t =>
          stoppedWith s t { StopRec.none with code := 0x0523, station := r.station }
          ∧ ∀ q, q < 2 → t.red.get RedEngine.reset q = ⟨r.id, 0x0523⟩ ∧ raised t (pgRED q) 2) ∧
      (s.jobLive = false → completes (.abort p) s fun t => s.notesOnly t))

/-- COLLECTIVE_TRIGGER starts the next instance of a record once its trigger knot has reached the value; nothing starts earlier, or while
one runs. COLLECTIVE_TIMEOUT raises ABORT on both engines (log entry 56: the model's reading) and stops the job with COLLECTIVE_TIMEOUT (R452, R456). -/
def Obligations.CollectiveInstanceRows : Prop :=
  ∀ (s : State) (k : Nat) (r : CollRec), s.collRec k = some r → s.jobLive = true → s.paused = false →
    (s.otherRuns k = [] → (s.run k).active = false → s.collTriggered r ((s.run k).inst + 1) = true → r.kind = some .recv → (s.run k).early = [] →
      completes (.collectiveTrigger k) s fun t =>
        t.run k = { CollRun.reset with inst := (s.run k).inst + 1, active := true }
        ∧ runsOnly { s with free := t.free } t) ∧
    ((s.run k).active = true ∨ s.collTriggered r ((s.run k).inst + 1) = false → exec (.collectiveTrigger k) s = .next s) ∧
    ((s.run k).active = true →
      completes (.collectiveTimeout k) s fun t =>
        stoppedWith s t { StopRec.none with code := 0x0521, station := r.station } ∧ raised t (pgRED 0) 2 ∧ raised t (pgRED 1) 2)

/-! ### Ethernet and memory health -/

/-- A counter of a page has gone up by `n`, saturating (R633). -/
def Sys2Proof.Claims.countedUp (s t : State) (page key n : Nat) : Prop :=
  (t.page page).counter key = satAdd (2 ^ ctrWidth page key - 1) ((s.page page).counter key) n

/-- A received frame is counted, then taken, answered or dropped by the conditions in their order, and counted for what became of it; a
port that goes down leaves the rotation and raises DOWN, rejoins it with link and FEC lock, and comes up in the mode set (R434, R436,
R437, R441, R446). Which drop of R441 is counted, the tags that a port with TAG_EN takes and where the management port counts are the model's
readings (log entry 62). -/
def Obligations.EthernetRows : Prop :=
  ∀ (s : State), s.power.pg = true →
    (∀ (fr : Frame), fr.port < 8 → fr.foreign = none → s.pagePresent (pgETH fr.port) = true → (s.port fr.port).linkUp = true → fr.uncorrected = 0 →
      (s.page (pgETH fr.port)).ctr.wf 0 = true →
      let e := pgETH fr.port
      completes (.ethFrameRx fr) s fun t =>
        ({ s with ports := t.ports } : State).notesOnly t ∧ countedUp s t e 1 1 ∧ countedUp s t e 3 fr.length
        ∧ countedUp s t e 4 fr.corrected
        ∧ (fr.fcsOk = false → countedUp s t e 6 1)
        ∧ (s.frameFate fr = .accepted → (fr.ce = true → countedUp s t e 9 1) ∧ t.ports = s.ports)
        ∧ (s.frameFate fr = .answered → (s.port fr.port).answered < 1000 →
            countedUp s t e 0 1 ∧ (t.port fr.port).answered = (s.port fr.port).answered + 1
            ∧ ∃ f, t.mrn.plain = s.mrn.plain ++ [f] ∧ f.use_ = fr.use_.answer ∧ f.port = fr.port ∧ f.dstMac = fr.srcMac ∧ f.dstIp = fr.srcIp)
        ∧ (s.frameFate fr = .resolved → fr.ipv6 = false → fr.srcIp.toNat % 2 ^ 32 = (s.port fr.port).gw4.toNat →
            (t.port fr.port).gwMac4 = some fr.srcMac)
        ∧ (s.frameFate fr = .pause → countedUp s t e 11 1 ∧ t.ports = s.ports)
        ∧ (s.frameFate fr = .format → countedUp s t e 7 1 ∧ t.ports = s.ports)
        ∧ (s.frameFate fr = .address → countedUp s t e 8 1 ∧ t.ports = s.ports)) ∧
    (∀ (fr : Frame), fr.port = 8 → fr.foreign = none → s.frameFate fr = .format →
      completes (.ethFrameRx fr) s fun t =>
        t.port 8 = { s.port 8 with drops := (s.port 8).drops + 1 } ∧ ({ s with ports := t.ports } : State).notesOnly t) ∧
    (∀ port, port < 8 → s.pagePresent (pgETH port) = true →
      ((s.port port).linkUp = true → s.ports.wf Port.reset = true →
        completes (.portDown port) s fun t =>
          (t.port port).linkUp = false ∧ (t.port port).inSpray = false ∧ (t.port port).mode = (s.port port).mode
          ∧ (∀ q, q ≠ port → t.port q = s.port q) ∧ raised t (pgETH port) 1 ∧ ({ s with ports := t.ports } : State).notesOnly t) ∧
      (∀ lanes, (s.page (pgETH port)).off = false → (s.port port).linkUp = false → (s.port port).mode ≠ 0 →
        modeLanes (s.port port).mode ≤ lanes →
        completes (.ethLinkUp port lanes (s.port port).mode) s fun t =>
          (t.port port).linkUp = true ∧ (t.port port).lanesOk = 2 ^ modeLanes (s.port port).mode - 1
          ∧ (t.port port).speed = (s.port port).mode ∧ (t.port port).fecLock = true ∧ (∀ q, q ≠ port → t.port q = s.port q)
          ∧ raised t (pgETH port) 0 ∧ ({ s with ports := t.ports } : State).notesOnly t)) ∧
    (∀ port, (s.port port).linkUp = true → (s.port port).fecLock = true →
      completes (.portRejoin port) s fun t =>
        t.port port = { s.port port with inSpray := true } ∧ (∀ q, q ≠ port → t.port q = s.port q) ∧ t = { s with ports := t.ports })

/-- A scrub of a stratum line moves the position on, counts what it finds, and leaves an uncorrectable line marked, its address latched
first of all and UNCORR raised, every other line as it was; a scrub of module memory moves its position on and writes nothing. A clear's end leaves the die's
stratum memory, or the quoin's module memory, all zero and the rest untouched (R369–R372, R375, R376). -/
def Sys2Proof.Claims.ScrubAndClearRows : Prop :=
  ∀ (s : State), s.memOk = true → s.strat.wf Stratum.reset = true → s.lpd.wf Lpd.reset = true →
    (∀ die, s.paused = false → (s.stratum die).scrubOn = true → (s.stratum die).ready = true →
      let x := s.stratum die
      let line := die * stratumLines + x.scrubPos
      let moved (f : Option Nat) : Stratum :=
        { x with scrubPos := (x.scrubPos + 1) % stratumLines, scrubOn := decide (x.scrubPos + 1 < stratumLines), failAddr := f }
      completes (.stratumScrub die .clean) s (fun t => t.stratum die = moved x.failAddr ∧ t = { s with strat := t.strat }) ∧
      (∀ w, completes (.stratumScrub die (.corrected w)) s fun t =>
        t.stratum die = moved x.failAddr ∧ t = { s with strat := t.strat, pages := t.pages, soft := t.soft }
        ∧ (∀ w', w' / 8 = line → w' ∉ t.soft)
        ∧ ((s.page (pgSTR die)).ctr.wf 0 = true → countedUp s t (pgSTR die) 0x4C 1)) ∧
      completes (.stratumScrub die .uncorrectable) s (fun t =>
        t.stratum die = moved (match x.failAddr with | some a => some a | none => some (64 * line))
        ∧ line ∈ t.bad ∧ raised t (pgSTR die) 0 ∧ ((s.page (pgSTR die)).ctr.wf 0 = true → countedUp s t (pgSTR die) 0x50 1)
        ∧ ∀ a, a < 64 * line ∨ 64 * line + 64 ≤ a → t.mem.get 0 a = s.mem.get 0 a)) ∧
    (∀ q, s.paused = false → s.power.pg = true →
      let x := s.lpdOf q
      let moved : Lpd := { x with scrubPos := (x.scrubPos + 1) % lpdLines, scrubOn := decide (x.scrubPos + 1 < lpdLines) }
      (x.scrubOn = true →
        completes (.lpdScrub q .clean) s (fun t => t.lpdOf q = moved ∧ t = { s with lpd := t.lpd }) ∧
        (∀ w, completes (.lpdScrub q (.corrected w)) s fun t =>
          t.lpdOf q = moved ∧ t = { s with lpd := t.lpd, pages := t.pages }
          ∧ ((s.page (pgLPD q)).ctr.wf 0 = true → countedUp s t (pgLPD q) 0x48 1)) ∧
        completes (.lpdScrub q .uncorrectable) s (fun t =>
          t.lpdOf q = moved ∧ ({ s with lpd := t.lpd } : State).notesOnly t ∧ raised t (pgLPD q) 0
          ∧ ((s.page (pgLPD q)).ctr.wf 0 = true → countedUp s t (pgLPD q) 0x4C 1))) ∧
      (x.scrubOn = false → ∀ f, exec (.lpdScrub q f) s = .next s)) ∧
    (s.snap.waits = [] → (∀ die, die < 4 → (s.sampler die).ending = none) → s.job.loading = none → s.job.attests = [] → s.mrn.admission = [] →
      (∀ die, (s.stratum die).clearing = true →
        completes (.stratumClearDone die) s fun t =>
          t.stratum die = { s.stratum die with clearing := false, ready := true }
          ∧ (∀ a, t.mem.get 0 a = if die * stratumSize ≤ a ∧ a < die * stratumSize + stratumSize then 0 else s.mem.get 0 a)
          ∧ t = { s with strat := t.strat, mem := t.mem, bad := t.bad, soft := t.soft }) ∧
      (∀ q, (s.lpdOf q).clearing = true →
        completes (.lpdClearDone q) s fun t =>
          t.lpdOf q = { s.lpdOf q with clearing := false }
          ∧ (∀ a, t.mem.get 0 a =
              if moduleBase + q * 0x4000000000 ≤ a ∧ a < moduleBase + q * 0x4000000000 + 0x4000000000 then 0 else s.mem.get 0 a)
          ∧ t = { s with lpd := t.lpd, mem := t.mem, bad := t.bad, soft := t.soft })) ∧
    (∀ q v, s.power.pg = true → q < 2 → bit v.toNat 0 = true →
      (s.job.state = .none → completes (.lpdCtlClear q v) s fun t =>
        t.lpdOf q = { s.lpdOf q with clearing := true } ∧ t = { s with lpd := t.lpd }) ∧
      (s.job.state ≠ .none → exec (.lpdCtlClear q v) s = .next s)) ∧
    (∀ die, completes (.strFailValidClear die) s fun t =>
      t.stratum die = { s.stratum die with failAddr := none } ∧ t = { s with strat := t.strat })

/-- A channel that trains again clears its run of failures; each failure is counted on and raised, and the third in a row stops the job
with CHANNEL_LOST; a mortar link that is lost stops it with LINK_LOST, its replays counted on by a free number (log entry 132); the standby controller takes over at a missed watchdog (R29, R31,
R363). -/
def Sys2Proof.Claims.LinkHealthRows : Prop :=
  ∀ (s : State),
    (∀ q chan, s.power.pg = true → s.paused = false → s.lpd.wf Lpd.reset = true → (s.lpdOf q).failRun.wf 0 = true →
      completes (.lpdRetrain q chan true) s (fun t => (t.lpdOf q).failRun.get 0 chan = 0 ∧ t = { s with lpd := t.lpd, free := t.free }) ∧
      completes (.lpdRetrain q chan false) s (fun t =>
        (t.lpdOf q).failRun.get 0 chan = (s.lpdOf q).failRun.get 0 chan + 1 ∧ raised t (pgLPD q) 2
        ∧ ((s.lpdOf q).failRun.get 0 chan = 2 → s.jobLive = true → stoppedWith s t { StopRec.none with code := 0x030B })
        ∧ ((s.lpdOf q).failRun.get 0 chan ≠ 2 → ({ s with lpd := t.lpd, free := t.free } : State).notesOnly t))) ∧
    (∀ link, s.power.pg = true → s.jobLive = true → link < 8 →
      completes (.mortarLinkDown link) s fun t =>
        (t.mortars.get Mortar.reset link).down = true
        ∧ (t.mortars.get Mortar.reset link).replays = (s.mortars.get Mortar.reset link).replays + Config.mortarReplays s.free
        ∧ (∀ l, l ≠ link → t.mortars.get Mortar.reset l = s.mortars.get Mortar.reset l)
        ∧ stoppedWith s t { StopRec.none with code := 0x0303 }) ∧
    completes .mgmtWatchdogMiss s (fun t => t = { s with ctlOnQ1 := true })

/-- Scrubs, clears, channel training and mortar links (choice of the model: log 132): `Claims.ScrubAndClearRows`, `Claims.LinkHealthRows`. -/
def Obligations.MemoryHealthRows : Prop := Claims.ScrubAndClearRows ∧ Claims.LinkHealthRows



/-! ### Snapshots -/

/-- No sampling request waits for its results to land, so that a write which goes on completes none (R271). -/
def Sys2Proof.Claims.noEndings (s : State) : Prop := ∀ die, die < 4 → (s.sampler die).ending = none

/-- A write that waits on a PROTECTED page begins the copy into the lowest free pool page, or waits for the pool and raises POOL_FULL the
first time; the end of the copy leaves the old bytes in the pool before the waiting write lands; while no copy is made the stream takes the
head's pages out of the pool (one without a pool page takes one then, log entry 125) and then the pages of the set, each FREE once its bytes are
in the window, which a pool page holds; the last one ends the snapshot with DONE; a pool page that reads with UNCORR twice, or a pool that stays
full, abandons it (R368, R381–R384, R506, R565, R575). -/
def Obligations.SnapshotRows : Prop :=
  ∀ (s : State), s.paused = false →
    (∀ page, s.snap.pages.find page = some .guarded → (s.snap.waits.any fun w => w.pages.contains page) = true →
      (∀ j, s.snap.freeSlot = some j →
        completes (.snapProtectedWrite page) s fun t =>
          t.snap.used = s.snap.used ++ [j] ∧ t.snap.pages.find page = some (.copying j) ∧ t = { s with snap := t.snap }) ∧
      (s.snap.freeSlot = none → (∀ w ∈ s.snap.waits, w.forPool = false) →
        completes (.snapProtectedWrite page) s fun t =>
          raised t pgSNP 3 ∧ t.snap.pages = s.snap.pages
          ∧ t.snap.waits = s.snap.waits.map (fun (w : WaitWrite) => { w with forPool := w.pages.contains page })
          ∧ ({ s with snap := t.snap } : State).notesOnly t)) ∧
    (∀ page j a data n f, s.memOk = true → s.clearsPage page = false → noEndings s → s.snap.pages.find page = some (.copying j) → s.snap.waits = [⟨[page], a, data, n, f⟩] →
      completes (.snapCopyDone page) s fun t =>
        t.snap.pages.find page = some (.copied j) ∧ t.snap.waits = []
        ∧ ∀ b, t.mem.get 0 b =
            if a ≤ b ∧ b < a + data.length then data.getD (b - a) 0
            else if s.snap.poolAddr j ≤ b ∧ b < s.snap.poolAddr j + 65536 then s.mem.get 0 (65536 * page + (b - s.snap.poolAddr j))
            else s.mem.get 0 b) ∧
    (s.snap.state = .opened → s.snap.reading = none → s.snap.copying = false →
      (∀ o, s.memOk = true → s.snap.head ≠ [] → s.findOp s.snap.op = some o → s.snapRoom = true →
        (∀ i l, s.headSlots = i :: l →
          (s.uncorr (s.snap.poolAddr i) 65536 = false →
            completes .snapStreamPage s fun t =>
              t.snap = { s.snap with head := s.snap.head.drop 65536 }
              ∧ opIs t s.snap.op (fun q => q.stream = o.stream ++ s.load (s.snap.poolAddr i) 65536 ∧ q.window = o.window ++ [i])
              ∧ (∀ b, t.mem.get 0 b = s.mem.get 0 b)
              ∧ ({ s with snap := t.snap, mem := t.mem, bad := t.bad, soft := t.soft } : State).notesOnly t) ∧
          (s.uncorr (s.snap.poolAddr i) 65536 = true →
            completes .snapStreamPage s fun t => t.snap.state = .abandoned ∧ t.snap.err = 0x0309 ∧ raised t pgSNP 1)) ∧
        (∀ i, s.headSlots = [] → s.snap.freeSlot = some i →
          completes .snapStreamPage s fun t =>
            t.snap = { s.snap with head := s.snap.head.drop 65536, used := s.snap.used ++ [i] }
            ∧ opIs t s.snap.op (fun q => q.stream = o.stream ++ s.snap.head.take 65536 ∧ q.window = o.window ++ [i])
            ∧ wrote s t (s.snap.poolAddr i) (s.snap.head.take 65536)
            ∧ ({ s with snap := t.snap, mem := t.mem, bad := t.bad, soft := t.soft } : State).notesOnly t)) ∧
      (∀ page rest, s.snap.head = [] → s.snap.todo = page :: rest → s.snap.pages.find page = some .guarded →
        completes .snapStreamPage s fun t =>
          t.snap.todo = rest ∧ t.snap.reading = some page ∧ t.snap.pages.find page = some .streaming ∧ t = { s with snap := t.snap })) ∧
    (∀ page slot o, noEndings s → s.snap.freeSlot = some slot → s.snap.reading = some page → s.snap.pages.find page = some .streaming → s.snapRoom = true → s.findOp s.snap.op = some o →
      s.snap.state = .opened → s.snap.head = [] →
      completes .snapStreamReadDone s fun t =>
        t.snap.reading = none ∧ opIs t s.snap.op (fun q =>
          q.stream = o.stream ++ s.load (65536 * page) 65536 ∧ q.window = o.window ++ [slot])
        ∧ t.snap.used = s.snap.used ++ [slot] ∧ t.snap.pages = s.snap.pages.del page
        ∧ (s.snap.todo ≠ [] → t.snap.state = .opened)
        ∧ (s.snap.todo = [] → t.snap.state = .done ∧ t.snap.ckpt = s.snap.id ∧ raised t pgSNP 0)) ∧
    ((s.snap.waits.any fun w => w.forPool) = true → s.snap.state = .opened → (∀ page, s.clearsPage page = false) →
      completes .snapPoolTimeout s fun t =>
        t.snap.state = .abandoned ∧ t.snap.err = 0x0309 ∧ t.snap.pages = [] ∧ t.snap.used = [] ∧ t.snap.waits = [] ∧ raised t pgSNP 1)

/-! ### Power, reset and boot -/

/-- What a module without its job holds after a reset: nothing in memory, no spindle's state, no session, no job; the fuses, the ledger,
the firmware and the boot count stay (R471, R594, R622). -/
def Sys2Proof.Claims.wasReset (s t : State) : Prop :=
  t.mem = [] ∧ t.sp = [] ∧ t.job = Job.reset ∧ t.mrn.sessions = [] ∧ t.mrn.bootCount = s.mrn.bootCount
    ∧ t.trust.fuses = s.trust.fuses ∧ t.trust.fw = s.trust.fw ∧ t.trust.ledger = s.trust.ledger

/-- The power-on sequence with an image that verifies ends with PG high, everything cleared, the boot counted and the image running; a
failing boot check listens for an image with PG low, and a failing step holds PG low and is reported, a training with its packages. BOOT is the same from a
reset that left the module powered (R363, R578, R603, R606, R677, R678, R688); that its channels train again is the model's reading (log entry 72). -/
def Obligations.PowerOnRows : Prop :=
  ∀ (s : State),
    let step := s.trust.repair.bootStep
    (∀ u, s.power.pwrEn = false → s.power.pg = false → 40000 ≤ u.vin →
      (450 < u.inlet → completes (.powerOn u) s fun t => t.power.failed = true ∧ t.power.pg = false ∧ t.power.failStep = some 0 ∧ wasReset s t) ∧
      (u.inlet ≤ 450 → step ≠ 0 →
        completes (.powerOn u) s fun t =>
          t.trust.recovery = true ∧ t.trust.bootReason = step ∧ t.power.pg = false ∧ raised t pgSEC 1) ∧
      (u.inlet ≤ 450 → step = 0 → u.failStep.isSome = true →
        completes (.powerOn u) s fun t => t.power.failed = true ∧ t.power.pg = false ∧ t.power.failStep = u.failStep) ∧
      (u.inlet ≤ 450 → step = 0 → u.failStep = none → s.trained u.chan0 u.chan1 = false →
        completes (.powerOn u) s fun t =>
          t.power.failed = true ∧ t.power.pg = false ∧ t.power.failStep = some 3 ∧ t.power.failPkgs = s.untrained u.chan0 u.chan1) ∧
      (u.inlet ≤ 450 → step = 0 → u.failStep = none → s.trained u.chan0 u.chan1 = true → s.sag.image = none → u.tamperHigh = true →
        completes (.powerOn u) s fun t =>
          t.power.pg = true ∧ t.power.pwrEn = true ∧ t.power.slotId = u.slot.toNat ∧ t.mem = [] ∧ t.sp = [] ∧ t.job = Job.reset
          ∧ t.mrn.sessions = [] ∧ t.mrn.bootCount = (s.mrn.bootCount + 1) % 2 ^ 32 ∧ t.trust.running = some s.trust.fw
          ∧ t.trust.recovery = false ∧ t.trust.fuses = s.trust.fuses ∧ t.sag.state = .armed ∧ (t.lpdOf 0).chanUp = u.chan0)) ∧
    (s.power.pwrEn = true → s.power.pg = false → s.power.failed = false → s.trust.recovery = false →
      (step ≠ 0 → completes .boot s fun t => t.trust.recovery = true ∧ t.trust.bootReason = step ∧ t.power.pg = false) ∧
      (step = 0 → s.sag.image = none → s.power.tamperLvl = true →
        completes .boot s fun t =>
          t.power.pg = true ∧ t.mrn.bootCount = (s.mrn.bootCount + 1) % 2 ^ 32 ∧ t.trust.running = some s.trust.fw
          ∧ t.trust.recovery = false ∧ t.mem = s.mem))

/-- The input switch opens at an overvoltage and closes again unless PWR_EN holds it open; a high input raises its event; PWR_EN falling with
PG high leaves the module on its bank, and before PG, as a low input then, without power; VRST and the timer after a received image reset
it (R577, R578, R594, R604, R673); that VRST and a low input leave PWR_EN taken as low until the next POWER_ON is the model's reading (log entry
72). -/
def Obligations.PowerRows : Prop :=
  ∀ (s : State),
    (s.power.pwrEn = true → s.power.switchOpen = false →
      completes .vinOvervoltage s fun t => t = { s with power := { s.power with switchOpen := true, openByVin := true } }) ∧
    (s.power.pwrEn = true → s.power.openByVin = true →
      completes .vinSwitchClose s fun t => t = { s with power := { s.power with switchOpen := false, openByVin := false } }) ∧
    (s.power.openByVin = false → exec .vinSwitchClose s = .next s) ∧
    (s.power.pg = true → completes .vinHigh s fun t => s.notesOnly t ∧ raised t pgPWR 0) ∧
    (s.power.pwrEn = true → s.power.pg = true →
      completes .pwrEnFall s fun t => t = { s with power := { s.power with pwrEn := false, switchOpen := true, coolantStop := false } }) ∧
    (s.power.pwrEn = true → s.power.pg = false →
      completes .pwrEnFall s (fun t => t.power = { PowerSt.reset with slotId := s.power.slotId } ∧ wasReset s t) ∧
      completes .vinLowBeforePg s (fun t => t.power = { PowerSt.reset with slotId := s.power.slotId } ∧ wasReset s t)) ∧
    (s.power.pg = true → completes .vrstReset s fun t => t.power.pg = false ∧ t.power.pwrEn = false ∧ wasReset s t) ∧
    (s.trust.imageTimer = true →
      completes .imageResetTimer s fun t =>
        t.power.pg = false ∧ t.power.pwrEn = s.power.pwrEn ∧ t.trust.imageTimer = false ∧ wasReset s t)

/-- PWR_MODE takes modes 0 to 3, PEAK only under a lease; a mode asked for during a change waits. PWR_PEAK_GRANT counts a lease; at
its end, or when it is revoked, the module changes to OVERLAP, also out of a mode other than PEAK (log entry 75), and raises PEAK_EXPIRED. A governor period takes the readings, keeps PIN_MAX, steps down at most once per 20 µs and up at most once per
100 µs; a coolant outlet above its limit at the lowest step stops the job, holds every skein off and is recorded; a read of PWR_PIN
resets PIN_MAX (R579, R581–R583, R637, R687). -/
def Obligations.GovernorRows : Prop :=
  ∀ (s : State), s.power.pg = true →
    (∀ v : W32, let m := v.toNat % 8
      (3 < m → exec (.pwrModeWrite v) s = .next s) ∧
      (m = 3 → s.power.lease = 0 →
        completes (.pwrModeWrite v) s fun t =>
          t = { s with pages := t.pages } ∧ (t.page pgPWR).errValid = true
          ∧ ((s.page pgPWR).errValid = false → (t.page pgPWR).errCode = 0x0603)) ∧
      (m ≤ 3 → (m = 3 → s.power.lease ≠ 0) → s.power.changing = true →
        completes (.pwrModeWrite v) s fun t => t = { s with power := { s.power with pendingMode := some m } }) ∧
      (m ≤ 3 → (m = 3 → s.power.lease ≠ 0) → s.power.changing = false →
        completes (.pwrModeWrite v) s fun t => t.power.mode = m ∧ t = { s with power := t.power })) ∧
    (∀ v : W32, v.toNat % 65536 ≠ 0 →
      completes (.pwrPeakGrantWrite v) s fun t => t = { s with power := { s.power with lease := v.toNat % 65536 } }) ∧
    (s.power.lease ≠ 0 →
      completes .peakLeaseExpiry s (fun t =>
        t.power.lease = 0 ∧ raised t pgPWR 1 ∧ ({ s with power := t.power } : State).notesOnly t
        ∧ (s.power.changing = false → t.power.mode = 2)
        ∧ (s.power.changing = true → t.power = { s.power with lease := 0, pendingMode := some 2 })) ∧
      (∀ v : W32, v.toNat % 65536 = 0 → exec (.pwrPeakGrantWrite v) s = exec .peakLeaseExpiry s)) ∧
    (∀ m : Sensors, s.pages.wf PageHdr.reset = true → (s.page pgPWR).ctr.wf 0 = true →
      completes (.governorTick m) s fun t =>
        let p := s.power.measure m
        ({ s with power := t.power } : State).notesOnly t
        ∧ t.power.vin = m.vin % 65536 ∧ t.power.pin = m.pin % 65536 ∧ t.power.outlet = m.outlet
        ∧ (t.page pgPWR).counter 0x4C = max ((s.page pgPWR).counter 0x4C) (m.pin % 65536)
        ∧ (s.paused = true → t.power = p)
        ∧ (s.paused = false → p.excess ≠ 0 →
            t.power.step = (if s.power.step < 8 ∧ 1 ≤ s.power.sinceStep then s.power.step + 1 else s.power.step))
        ∧ (s.paused = false → p.excess ≠ 0 → s.power.step = 0 → 1 ≤ s.power.sinceStep → raised t pgPWR 2 ∧ t.power.reason = p.excess)
        ∧ (s.paused = false → p.excess = 0 →
            t.power.step = s.power.step ∨ (0 < s.power.step ∧ 9 ≤ s.power.sinceStep ∧ 99 ≤ s.power.below ∧ t.power.step = s.power.step - 1))) ∧
    (s.power.step = 8 → 620 < s.power.outlet → s.jobLive = true →
      completes .coolantLimit s fun t =>
        stoppedWith s t { StopRec.none with code := 0x0605 } ∧ t.power.coolantStop = true ∧ (∀ k, (t.skein k).power = .off)
        ∧ (t.page pgPWR).errValid = true) ∧
    (s.pages.wf PageHdr.reset = true → (s.page pgPWR).ctr.wf 0 = true → (s.page pgPWR).last.wf 0 = true →
      completes .pwrPinRead s fun t =>
        (t.page pgPWR).counter 0x4C = 0 ∧ (t.page pgPWR).last.get 0 0x4C = (s.page pgPWR).counter 0x4C ∧ t = { s with pages := t.pages })

/-! ### The sag sequence -/

/-- A sag pauses the module with its state as it stands; once every unit has stopped, every ready skein is retained and the image staged;
its write ends with the valid image kept; a recovery resumes, and a hold that lasts too long stops the job; the erase arms it again, and a
capacitor test that meets a sag is abandoned (R586, R587, R589, R592–R595, R598, R666). -/
def Obligations.SagRows : Prop :=
  ∀ (s : State),
    (s.power.pg = true →
      (s.sag.state = .armed → s.sag.kept = false → s.capTesting = false →
        completes .sagDetect s fun t =>
          t.sag.state = .pausing ∧ t.sag.atT = s.trd.tpos ∧ t.sag.atJ = s.jobPos ∧ t.sag.skipImage = false ∧ raised t pgSAG 0
          ∧ ({ s with sag := t.sag } : State).notesOnly t) ∧
      (s.sag.state = .erasing → s.capTesting = false →
        completes .sagDetect s fun t =>
          t.sag.state = .pausing ∧ t.sag.skipImage = true ∧ raised t pgSAG 0 ∧ raised t pgSAG 3
          ∧ ({ s with sag := t.sag } : State).notesOnly t) ∧
      (s.sag.state = .armed → s.capTesting = true →
        completes .sagDetect s fun t =>
          t.sag.state = .pausing ∧ raised t pgSAG 0 ∧ t.maint.capAgain = true ∧ t.maint.lastErr = 0x0903 ∧ t.maint.lastAct = 1)) ∧
    (s.sag.state = .pausing → completes .sagPaused s fun t => t = { s with sag := { s.sag with stopped := true } }) ∧
    (s.sag.state = .pausing → s.sag.stopped = true → s.sag.skipImage = false → s.memOk = true →
      completes .sagGatherDone s fun t =>
        t.sag.state = .saving
        ∧ (∀ k, (t.skein k).power = if (s.skein k).power = .ready then .retained else (s.skein k).power)
        ∧ ∃ g, t.sag.staged = some g ∧ g.valid = false ∧ g.boot = s.mrn.bootCount ∧ g.tpos = s.sag.atT ∧ g.jpos = s.sag.atJ
            ∧ g.sessions = s.mrn.sessions ∧ g.cache = s.mrn.cache ∧ g.values = s.sagValues ∧ wrote s t stagingBase g.bytes) ∧
    (∀ us g, s.sag.state = .saving → s.sag.staged = some g → s.sag.recovered = false → s.trust.tamperHeld = 0 →
      completes (.sagSaveDone us) s fun t =>
        t.sag.state = .hold ∧ t.sag.image = some { g with valid := true } ∧ t.sag.staged = none ∧ t.sag.lastUs = min 0xFFFF us
        ∧ raised t pgSAG 1 ∧ ({ s with sag := t.sag, wear := t.wear, free := t.free } : State).notesOnly t) ∧
    (s.power.pg = true → s.power.pwrEn = true →
      (s.sag.state = .saving → completes .sagRecovery s fun t => t = { s with sag := { s.sag with recovered := true } }) ∧
      (s.sag.state = .hold → s.allReady = false → s.memOk = true →
        completes .sagRecovery s fun t =>
          t.sag.state = .resuming
          ∧ t.power.queue = s.power.queue ++ (s.sk.keysWhere fun k => k.power == .retained).map SeqReq.wake
          ∧ (∀ a, t.mem.get 0 a = if stagingBase ≤ a ∧ a < stagingBase + 0x800000 then 0 else s.mem.get 0 a)
          ∧ t.sp = s.sp ∧ t.job = s.job)) ∧
    (s.power.pwrEn = false → exec .sagRecovery s = .next s) ∧
    (s.sag.state = .hold → s.sag.timedOut = false → s.jobLive = true →
      completes .sagHoldTimeout s fun t =>
        t.sag.state = .hold ∧ stoppedWith s t { StopRec.none with code := 0x0601 } ∧ raised t pgSAG 4) ∧
    (s.sag.state = .erasing → s.maint.capAgain = false →
      completes .sagEraseDone s fun t =>
        t = { s with sag := { s.sag with state := .armed, image := none, kept := false, skipImage := false } }) ∧
    ((s.maint.running.any fun q => q.act == 1) = true →
      completes .capTestAbandon s fun t =>
        t.maint.capAgain = true ∧ t.maint.lastErr = 0x0903 ∧ t.maint.lastAct = 1 ∧ raised t pgMNT 2
        ∧ (s.maint.waiting = [] → t.maint.running = s.maint.running.filter (fun q => q.act != 1)
            ∧ ({ s with maint := t.maint } : State).notesOnly t))



/-! ### Trust -/

/-- A FUSE_CMD is refused after a tamper event, while a job is loaded, while the capacitor test runs (log entry 121), and without the owner's authority; each of the six changes that is
allowed changes its fuses and both mirrors, appends one entry to both copies of the ledger and raises CHANGED; one of the life cycle resets the module besides.
FUSE_LEDGER_SEL shows an entry (R611–R617, R619, R621, R663). The order of the refusals and what a counter counts are the model's readings (log entry 69). -/
def Obligations.FuseRows : Prop :=
  ∀ (s : State) (arg : Nat) (origin : W64), s.power.pg = true →
    let f := s.trust.fuses
    let v := s.stageNat 8
    let img := s.trust.running.getD []
    let owners : List Instr := [.fuseRole arg origin, .fuseSvnMin arg origin, .fuseRevoke arg origin, .fuseOwnerInstall arg origin,
      .fuseAddressBlock arg origin]
    let refused (c : Instr) (code : W16) : Prop := completes c s fun t =>
      t.trust = { s.trust with fuseErr := code } ∧ (t.page pgFUSE).errValid = true ∧ t = { s with trust := t.trust, pages := t.pages }
    let entry (code count old new : Nat) : LedgerEntry :=
      ⟨s.trust.ledger.length + 1, code, false, count, s.mrn.bootCount, old, new, origin⟩
    let made (c : Instr) (code : Nat) (g : Fuses) (count old new : Nat) : Prop := completes c s fun t =>
      t.trust = { s.trust with fuses := g, mirrorA := some g, mirrorB := some g, fuseErr := 0,
                               ledger := s.trust.ledger ++ [entry code count old new],
                               ledger2 := s.trust.ledger ++ [entry code count old new] }
      ∧ raised t pgFUSE 0 ∧ ({ s with trust := t.trust, wear := t.wear, free := t.free } : State).notesOnly t
    (∀ c ∈ owners ++ [.fuseLifeCycle arg origin],
      (s.trust.tamper ≠ 0 → refused c 0x0702) ∧
      (s.trust.tamper = 0 → s.job.state ≠ .none ∨ s.paused = true ∨ s.capTesting = true → refused c 0x0709)) ∧
    (s.trust.tamper = 0 → s.job.state = .none → s.paused = false → s.capTesting = false →
      (s.ownerState = false → ∀ c ∈ owners, refused c 0x0703) ∧
      (s.ownerState = true →
        (s.isX = true → v ≤ 1 → b2n f.manager ≠ v → f.roleN < 15 →
          made (.fuseRole arg origin) 1 { f with roleN := f.roleN + 1 } (f.roleN + 1) (b2n f.manager) v) ∧
        (f.svnMin < v → v ≤ imageSvn img → v ≤ 64 → made (.fuseSvnMin arg origin) 2 { f with svnMin := v } v f.svnMin v) ∧
        (v < 16 → v &&& (15 - imageRevoke img % 16) = 0 → f.revoked ||| v ≠ 15 → f.revoked ||| v ≠ f.revoked →
          made (.fuseRevoke arg origin) 3 { f with revoked := f.revoked ||| v } (maskCount (f.revoked ||| v)) f.revoked (f.revoked ||| v)) ∧
        (arg ≤ 3 → f.ownerN < 8 →
          let key := s.stageBytes.take 57
          let old := match f.ownerKeys.find arg with | some k => leNat ((keyDigest k).take 8) | none => 0
          made (.fuseOwnerInstall arg origin) 4 { f with ownerN := f.ownerN + 1, ownerKeys := f.ownerKeys.put arg key } (f.ownerN + 1) old
            (leNat ((keyDigest key).take 8))) ∧
        (v < 2 ^ 48 → f.addrN < 4 →
          made (.fuseAddressBlock arg origin) 5 { f with addrN := f.addrN + 1, addrBlock := v } (f.addrN + 1) f.addrBlock v)) ∧
      (v ≠ f.lc + 1 → refused (.fuseLifeCycle arg origin) 0x0703) ∧
      (v = f.lc + 1 → v ≤ 4 →
        completes (.fuseLifeCycle arg origin) s fun t =>
          t.trust.fuses.lc = v ∧ t.trust.fuses.lcN = f.lcN + 1 ∧ t.trust.ledger = s.trust.ledger ++ [entry 6 (f.lcN + 1) f.lc v]
          ∧ t.mem = [] ∧ t.sp = [] ∧ t.mrn.sessions = [] ∧ t.power.pg = false)) ∧
    (∀ (w : W32) e, s.trust.ledger.find? (fun e => e.seq == w.toNat) = some e →
      completes (.fuseLedgerSelWrite w) s fun t => t = { s with trust := { s.trust with lsel := w.toNat, ldata := e.bytes } })

/-- A tamper event wipes the secure region and nothing else of memory, erases every session's keys, stops the job with TAMPER, sets its
bit, and is written to the ledger; during a save it waits. TAMPER_N is judged while PG is high alone, the other sources whenever there is power. A
clear keeps the bits whose source is still active, bit 0 of which is the pin's level (R618, R619, R678, R690). -/
def Obligations.TamperRows : Prop :=
  ∀ (s : State),
    (∀ src, src < 4 → s.power.pg = true ∨ (src ≠ 0 ∧ s.power.pwrEn = true) →
      (s.sag.state ≠ .pausing → s.sag.state ≠ .saving → s.memOk = true → s.jobLive = true →
        completes (.tamper src) s fun t =>
          (∀ a, t.mem.get 0 a = if secureBase ≤ a ∧ a < secureBase + 0x400000 then 0 else s.mem.get 0 a)
          ∧ (∀ i, (t.session i).keyRx = [] ∧ (t.session i).keyTx = []) ∧ t.job.state = .stopped ∧ t.job.stop.code = 0x0701
          ∧ bit t.trust.tamper src = true ∧ raised t pgSEC 0
          ∧ ∃ e, t.trust.ledger = s.trust.ledger ++ [e] ∧ e.code = 7 ∧ e.new = 2 ^ src) ∧
      (s.sag.state = .pausing ∨ s.sag.state = .saving →
        completes (.tamper src) s fun t =>
          t = { s with
            trust := { s.trust with tamperHeld := s.trust.tamperHeld ||| 2 ^ src },
            power := { s.power with tamperLvl := if src = 0 ∧ s.power.pwrEn = true then false else s.power.tamperLvl } })) ∧
    (s.power.pg = false → s.power.pwrEn = true →
      completes (.tamper 0) s fun t => t = { s with power := { s.power with tamperLvl := false } }) ∧
    (∀ v active, completes (.secTamperClear v active) s fun t =>
      (∀ i, i < 4 → bit t.trust.tamper i = (bit s.trust.tamper i && (!(v.getLsbD i) || active.getLsbD i)))
      ∧ t = { s with trust := { s.trust with tamper := t.trust.tamper, tamperActive := active.toNat },
                     power := { s.power with tamperLvl := !(active.getLsbD 0) } })

/-! ### Register pages, windows and the trace unit -/

/-- The common header of a page: LOCK sets the lock; ERR_VALID_CLEAR clears the latch; EVT_PEND_CLEAR clears the named bits; EVT_FORCE
raises the named events; COUNTER_SNAP copies the counters; ENABLE and SRESET act only without a job, and are refused with 0x0102 with one;
SRESET leaves counters, latch, masks and pending bits zero, the lock as it was, and memory but where the extended trace store goes off with it
(R624, R626–R631, R635; log entry 120). -/
def Obligations.PageRows : Prop :=
  ∀ (s : State) (page : Nat), s.power.pg = true → s.pagePresent page = true → s.pages.wf PageHdr.reset = true →
    let h := s.page page
    let b := (pageBlock page).1
    let only (c : Instr) (g : PageHdr) : Prop := completes c s fun t =>
      t.page page = g ∧ (∀ q, q ≠ page → t.page q = s.page q) ∧ t = { s with pages := t.pages }
    let refused (c : Instr) : Prop := completes c s fun t =>
      (t.page page).errValid = true ∧ (h.errValid = false → (t.page page).errCode = 0x0102) ∧ (t.page page).off = h.off
      ∧ t = { s with pages := t.pages }
    only (.pageLock page) { h with locked := true } ∧
    only (.errValidClear page) { h with errValid := false, errCode := 0, errMore := 0, errInfo := 0 } ∧
    (∀ v, only (.evtPendClear page v) { h with pend := h.pend &&& ~~~v }) ∧
    only (.counterSnap page) { h with snap := h.ctr, snapSeq := (h.snapSeq + 1) % 2 ^ 16 } ∧
    (∀ v : W32, completes (.evtForce page v) s fun t =>
      s.notesOnly t ∧ ∀ i, i < 32 → v.getLsbD i = true → bit (eventBits b) i = true → raised t page i) ∧
    (∀ on, enableFixed b = false → h.off = on →
      (s.job.state ≠ .none → refused (.enableWrite page on)) ∧
      (s.job.state = .none → completes (.enableWrite page on) s fun t =>
        (t.page page).off = !on ∧ ({ s with ports := t.ports } : State).notesOnly t)) ∧
    (∀ on, enableFixed b = true → exec (.enableWrite page on) s = .next s) ∧
    (b = 0x01 ∨ b = 0x0B ∨ b = 0x0C → exec (.sreset page) s = .next s) ∧
    (b ≠ 0x01 → b ≠ 0x0B → b ≠ 0x0C →
      (s.job.state ≠ .none → refused (.sreset page)) ∧
      (s.job.state = .none → completes (.sreset page) s fun t =>
        (t.page page).pend = 0 ∧ (t.page page).mask = 0 ∧ (t.page page).ctr = [] ∧ (t.page page).errValid = false
        ∧ (t.page page).cntSel = 0 ∧ (t.page page).off = h.off ∧ (t.page page).locked = h.locked
        ∧ (b ≠ 0x08 ∨ h.locked = true ∨ s.trace.xtEn = false → t.mem = s.mem) ∧ t.sp = s.sp ∧ t.job = s.job))

/-- A select register shows the named tracker, queue, knot, session or event-table entry as it stands; EVT_ENT7 writes the entry or is
refused with the table as it was (by what comes, whatever stands there, and with LATE clear: log entries 60 and 83); a rescale factor waits for the next epoch and is taken in HOST mode only; TRD_CTL sets BYPASS and closes
the switch; a read of TRD_POS_LO latches TRD_POS_HI (R196, R228, R353, R354, R513, R531, R555, R556). -/
def Obligations.WindowRows : Prop :=
  ∀ (s : State) (v : W32), s.power.pg = true → s.sk.wf Skein.reset = true → s.engines.wf QueueEngine.reset = true →
    s.knotWin.wf KnotBlock.reset = true → s.evt.entries.wf EvEntry.reset = true → s.evt.window.wf 0 = true →
    (∀ k, s.skeinPresent k = true →
      completes (.plyTrkSelWrite k v) s (fun t =>
        t.skein k = { s.skein k with trkSel := v.toNat % 256, trkView := (s.skein k).trackers.get Tracker.reset (v.toNat % 256) }
        ∧ (∀ j, j ≠ k → t.skein j = s.skein j) ∧ t = { s with sk := t.sk }) ∧
      ((s.skein k).channels.wf Channel.reset = true →
        let c := (s.skein k).channels.get Channel.reset (s.skein k).chanSel
        ((s.skein k).hostChannel (s.skein k).chanSel = true →
          completes (.plyChanFactorWrite k v) s fun t =>
            (t.skein k).channels.get Channel.reset (s.skein k).chanSel = { c with nextFactor := v } ∧ t = { s with sk := t.sk }) ∧
        ((s.skein k).hostChannel (s.skein k).chanSel = false → exec (.plyChanFactorWrite k v) s = .next s))) ∧
    (∀ d, s.diePresent d = true →
      let q := 262144 * d + v.toNat % 2 ^ 18
      let k := 2048 * d + v.toNat % 2048
      completes (.queSelWrite d v) s (fun t =>
        t.engine d = { s.engine d with sel := v.toNat % 2 ^ 18, view := s.queue q, viewCached := (s.engine d).heads.contains q }
        ∧ t = { s with engines := t.engines }) ∧
      completes (.kntSelWrite d v) s (fun t =>
        t.knotWin.get KnotBlock.reset d = ⟨v.toNat % 2048, s.knot k, (s.waiters.filter fun w => w.knot == k).length⟩
        ∧ t = { s with knotWin := t.knotWin })) ∧
    (∀ e, e < 2 → e < s.mrn.sessSel.length → e < s.mrn.sessView.length →
      completes (.mrnSessSelWrite e v) s fun t =>
        t.mrn.sessSel.getD e 0 = v.toNat % 4096 ∧ t.mrn.sessView.getD e Session.fresh = s.session (4096 * e + v.toNat % 4096)
        ∧ t.mrn.sessions = s.mrn.sessions ∧ t = { s with mrn := t.mrn }) ∧
    completes (.evtSelWrite v) s (fun t =>
      t.evt.sel = v.toNat % 1024 ∧ t.evt.entries = s.evt.entries ∧ t = { s with evt := t.evt }
      ∧ ∀ k, k < 8 → t.evt.window.get 0 k = BitVec.ofNat 32 (leAt (s.evt.entries.get EvEntry.reset (v.toNat % 1024)).bytes (4 * k) 4)) ∧
    (let u : State := { s with evt := { s.evt with window := s.evt.window.set 0 7 v } }
     let e := u.evt.windowEntry
     let ok := (!e.valid || mayWrite .host false e.action) && u.evtOk ((u.putEntry s.evt.sel e).evt.entries.map (·.2))
     (ok = true → completes (.evtEnt7Write v) s fun t =>
       t.evt.entries.get EvEntry.reset s.evt.sel = e ∧ (∀ i, i ≠ s.evt.sel → t.evt.entries.get EvEntry.reset i = s.evt.entries.get EvEntry.reset i)
       ∧ t.evt.sel = s.evt.sel ∧ (∀ k, k < 8 → t.evt.window.get 0 k = BitVec.ofNat 32 (leAt e.bytes (4 * k) 4))
       ∧ t = { s with evt := t.evt }) ∧
     (ok = false → completes (.evtEnt7Write v) s fun t =>
       t.evt.entries = s.evt.entries ∧ raised t pgEVT 1 ∧ (t.page pgEVT).errValid = true
       ∧ ({ s with evt := t.evt } : State).notesOnly t)) ∧
    completes (.trdCtlBypass v) s (fun t =>
      t.trd.byCtl = bit v.toNat 31 ∧ t.trd.closed = s.trd.closed
      ∧ t.trd.closing = (if bit v.toNat 31 = true ∧ ¬(s.trd.closed = true ∧ s.trd.closing = none) then some true else s.trd.closing)
      ∧ ((s.page pgTRD).locked = false → 250 ≤ v.toNat % 2 ^ 20 → v.toNat % 2 ^ 20 ≤ 1000000 → t.trd.soloPeriod = v.toNat % 2 ^ 20)
      ∧ ((s.page pgTRD).locked = true → t.trd.soloPeriod = s.trd.soloPeriod) ∧ t = { s with trd := t.trd }) ∧
    completes .trdPosLoRead s (fun t => t = { s with trd := { s.trd with posHi := BitVec.ofNat 32 (s.trd.tpos / 2 ^ 32) } })

/-- A host trigger, or one for a stalled operation, captures while the rings are ARMED and is counted as lost after; a ring that has its
POST records freezes; the time limit freezes every ring and raises FROZEN; REARM arms them all and the extended store, their counts of
records lost reset into LAST, unless a dump is held (R637, R647, R648, R650). -/
def Obligations.TraceRows : Prop :=
  ∀ (s : State), s.power.pg = true →
    (s.trace.phase = .armed →
      completes .trcCtlTrig s (fun t =>
        t.trace.phase = .post ∧ t.trace.lastSrc = trgHost ∧ t.trace.trigStamp = s.stamp 4 ∧ raised t pgTRC 0 ∧ s.notesOnly t) ∧
      (∀ op o, s.findOp op = some o → o.live = true → s.paused = false → bit s.trace.trigMask 6 = true →
        completes (.bulkStallTrigger op) s fun t => t.trace.phase = .post ∧ t.trace.lastSrc = 6 ∧ raised t pgTRC 0 ∧ s.notesOnly t)) ∧
    (s.trace.phase ≠ .armed →
      completes .trcCtlTrig s fun t =>
        t.trace.phase = s.trace.phase ∧ t.trace.lostSrc = trgHost ∧ countedUp s t pgTRC 0x5C 1 ∧ s.notesOnly t) ∧
    (∀ page, s.trace.phase = .post → page ≠ xtPage → s.hasRing page = true → s.ringStopped (ringDepth page) (s.ring page) = true →
      completes (.ringFreeze page) s fun t => (t.ring page).frozen = true ∧ s.notesOnly t) ∧
    (s.trace.phase = .post → s.paused = false →
      completes .postMaxExpiry s fun t =>
        t.trace.phase = .frozen ∧ t.trace.freezeT = s.trd.tpos ∧ t.trace.freezeJ = s.jobPos ∧ t.trace.freezeStamp = s.stamp 4
        ∧ raised t pgTRC 1 ∧ s.notesOnly t) ∧
    (s.trace.held = none →
      completes .trcCtlRearm s fun t =>
        let armed (g : Ring) : Ring :=
          { g with overwritten := 0, frozenDrop := 0, lastOver := g.overwritten, lastDrop := g.frozenDrop, frozen := false, post := 0 }
        t.trace = { s.trace with phase := .armed, xt := armed s.trace.xt, xtFull := false } ∧ (∀ p, t.ring p = armed (s.ring p))
        ∧ t = { s with trace := t.trace, rings := t.rings }) ∧
    (s.trace.held.isSome = true → exec .trcCtlRearm s = .next s)

/-! ### Maintenance and wear -/

/-- The request that a row makes, and the state in which it is made: a period of a MARGIN_SCAN takes the next fitted port in turn, and a period
of zero requests nothing (R662, R664, R670). -/
def Sys2Proof.Claims.maintAsks (s : State) : Instr → Option (MntReq × State)
  | .mntReqCapTest => some (⟨1, 0, true⟩, s)
  | .mntReqMarginScan p => some (⟨2, p, true⟩, s)
  | .mntReqCompact => some (⟨3, 0, true⟩, s)
  | .mntReqAgeCal => some (⟨5, 0, true⟩, s)
  | .mntReqBypassTest => some (⟨6, 0, true⟩, s)
  | .mntPeriodicRequest act =>
    if act = 1 ∧ s.maint.capH ≠ 0 then some (⟨1, 0, false⟩, s)
    else if act = 2 ∧ s.maint.marginH ≠ 0 then
      some (⟨2, s.turnPort, false⟩, { s with maint := { s.maint with nextPort := (s.turnPort + 1) % 9 } })
    else if act = 3 then some (⟨3, 0, false⟩, s)
    else if act = 5 ∧ s.maint.agingH ≠ 0 then some (⟨5, 0, false⟩, s)
    else none
  | _ => none

/-- A request (MNT_REQ_CAP_TEST, MNT_REQ_MARGIN_SCAN, MNT_REQ_COMPACT, MNT_REQ_AGE_CAL, MNT_REQ_BYPASS_TEST, MNT_PERIODIC_REQUEST)
merges with one of its activity, waits while it conflicts or has no window, or starts; BYPASS_TEST is refused with a job
loaded; a scan takes its port out of the rotation. A period of zero requests nothing, and a scrub period begins a pass on every die and quoin
that has none. MNT_DEFER_TIMEOUT refuses a request that has waited on conflicts too long; one that waits for a window is not. MAINT_WINDOW_CLOSE
closes an open window at its end (R446, R662–R665, R670). How a periodic scan takes the ports is the model's reading (log entry 49). -/
def Sys2Proof.Claims.MaintRequestRows : Prop :=
  ∀ (s : State),
    (∀ c r u, maintAsks s c = some (r, u) →
      let again := (s.maint.running ++ s.maint.waiting).any fun q => q.act == r.act
      (again = true → completes c s fun t => countedUp s t pgMNT 0x54 1 ∧ t = { u with pages := t.pages }) ∧
      (again = false → r.act = 6 → s.job.state ≠ .none →
        completes c s fun t =>
          t.maint = { u.maint with lastErr := 0x0902, lastAct := 6 } ∧ raised t pgMNT 0 ∧ ({ u with maint := t.maint } : State).notesOnly t) ∧
      (again = false → (r.act = 6 → s.job.state = .none) →
        (s.mntConflict r = true ∨ s.mntWindow r.act = false →
          completes c s fun t => t = { u with maint := { u.maint with waiting := u.maint.waiting ++ [r] } }) ∧
        (s.mntConflict r = false → s.mntWindow r.act = true →
          completes c s fun t =>
            t.maint = { u.maint with running := u.maint.running ++ [r] } ∧ t = { u with maint := t.maint, ports := t.ports }
            ∧ (r.act ≠ 2 → t.ports = s.ports)
            ∧ (r.act = 2 → s.ports.wf Port.reset = true → (∀ q, q ≠ r.port → t.port q = s.port q) ∧
                (r.port < 8 → t.port r.port = { s.port r.port with inSpray := false }))))) ∧
    (∀ act, act ≠ 0 → maintAsks s (.mntPeriodicRequest act) = none → exec (.mntPeriodicRequest act) s = .next s) ∧
    (s.strat.wf Stratum.reset = true → s.lpd.wf Lpd.reset = true →
      completes (.mntPeriodicRequest 0) s fun t =>
        (if (s.maint.running.any fun q => q.act == 0) = true then t.maint = s.maint ∧ countedUp s t pgMNT 0x54 1
         else t.maint = { s.maint with running := s.maint.running ++ [⟨0, 0, false⟩] } ∧ t.pages = s.pages)
        ∧ (∀ d, d < 4 → t.stratum d = if (s.stratum d).ready = true ∧ (s.stratum d).scrubOn = false
            then { s.stratum d with scrubOn := true, scrubPos := 0 } else s.stratum d)
        ∧ (∀ q, q < 2 → t.lpdOf q = if s.power.pg = true ∧ (s.lpdOf q).chanUp ≠ 0 ∧ (s.lpdOf q).scrubOn = false
            then { s.lpdOf q with scrubOn := true, scrubPos := 0 } else s.lpdOf q)
        ∧ t = { s with maint := t.maint, pages := t.pages, strat := t.strat, lpd := t.lpd }) ∧
    (∀ act q, s.maint.waiting.find? (fun q => q.act == act) = some q →
      (s.mntWindow act = true → s.mntConflict q = true →
        completes (.mntDeferTimeout act) s fun t =>
          t.maint = { s.maint with waiting := s.maint.waiting.erase q, lastErr := 0x0901, lastAct := act } ∧ raised t pgMNT 0
          ∧ ({ s with maint := t.maint } : State).notesOnly t) ∧
      (s.mntWindow act = false ∨ s.mntConflict q = false → exec (.mntDeferTimeout act) s = .next s)) ∧
    (∀ m, s.maint.window = some m →
      (s.maint.windowEnd ≤ s.trd.tpos →
        completes .maintWindowClose s fun t => t = { s with maint := { s.maint with window := none } }) ∧
      (s.trd.tpos < s.maint.windowEnd → exec .maintWindowClose s = .next s))

/-- The indicators that an activity measures (R660). -/
def Sys2Proof.Claims.measures (act port ind : Nat) : Prop :=
  (act = 5 ∧ ind < 6) ∨ (act = 3 ∧ ind = 6) ∨ (act = 2 ∧ ind = 8 + port)

/-- MAINT_ACTIVITY_END takes the activity off those that run, records what it measured and raises DONE: CAP_TEST the bank's values, a scan, AGE_CAL
and COMPACT their wear indicators; a scanned port rejoins the rotation, BYPASS_TEST counts its two changes of the ring switch, and a pass of
SCRUB raises nothing. A waiting request then starts if it conflicts with nothing. SNAP_STREAM does not end before its snapshot, COMPACT not
while SAG is not ARMED, SCRUB not before its passes (R446, R588, R660, R662, R664, R666). That E_u drops a fraction of a mJ is the model's reading
(log entry 49). -/
def Sys2Proof.Claims.MaintEndRows : Prop :=
  ∀ (s : State) (act : Nat) (q : MntReq) (d : Measured), s.maint.running.find? (fun q => q.act == act) = some q →
    let held := (act = 4 ∧ s.snap.state = .opened) ∨ (act = 3 ∧ s.sag.state ≠ .armed)
      ∨ (act = 0 ∧ ((∃ kv ∈ s.strat, kv.2.scrubOn = true) ∨ ∃ kv ∈ s.lpd, kv.2.scrubOn = true))
    (held → exec (.maintActivityEnd act d) s = .next s) ∧
    (¬held → s.maint.waiting = [] →
      completes (.maintActivityEnd act d) s fun t =>
        t.maint = { s.maint with running := s.maint.running.erase q }
        ∧ (act ≠ 0 → raised t pgMNT 2)
        ∧ (∀ ind v, measures act q.port ind → d.values = [(ind, v)] → t.wear.latest.find ind = some v)
        ∧ (act = 1 → t.sag = { s.sag with
              cap := min 0xFFFF d.capUf, esr := min 0xFFFF d.esr, euMj := min 0xFFFF (usableEnergy d.capUf d.esr) } ∧ t.wear.latest.find 7 = some (t.sag.euMj : Int))
        ∧ (act = 2 → q.port < 8 → s.ports.wf Port.reset = true →
            t.port q.port = { s.port q.port with inSpray := (s.port q.port).linkUp && (s.port q.port).fecLock })
        ∧ (act = 6 → countedUp s t pgTRD 4 2 ∧ raised t pgTRD 3)
        ∧ ({ s with maint := t.maint, wear := t.wear, sag := t.sag, ports := t.ports } : State).notesOnly t) ∧
    (∀ host, act = 1 → s.maint.running = [q] → s.maint.waiting = [⟨3, 0, host⟩] →
      completes (.maintActivityEnd 1 d) s fun t => t.maint.running = [⟨3, 0, host⟩] ∧ t.maint.waiting = [])

/-- WEAR_DAILY_SAMPLE appends the latest value of each measured indicator to the history, which the keep store holds: the write measures indicator 6
anew, by a free value (log entry 122). An indicator over its limit is marked, and raises EOL
as it crosses; its predicted end of life is 0 from 14 samples on, and reads 0xFFFF_FFFE before (R660, R661; the fits and the bound that stay free: log entry 86). -/
def Sys2Proof.Claims.WearDayRow : Prop :=
  ∀ (s : State), s.power.pg = true → s.wear.eol.wf 0xFFFFFFFE = true →
    completes .wearDailySample s fun t =>
      t.wear.history = s.wear.history
        ++ (List.range 17).filterMap (fun ind => (s.wear.latest.find ind).map fun v => (⟨ind, v⟩ : WearSample))
      ∧ t.wear.latest = s.wear.latest.put 6 (Config.keepErase s.free)
      ∧ (∀ ind v, ind < 17 → t.wear.latest.find ind = some v →
          bit t.wear.crossed ind = wearOver ind v
          ∧ (wearOver ind v = true → bit s.wear.crossed ind = false → raised t pgWEAR 1)
          ∧ ((t.samplesOf ind).length < 14 → t.wear.eol.get 0xFFFFFFFE ind = 0xFFFFFFFE)
          ∧ (14 ≤ (t.samplesOf ind).length → wearOver ind v = true → t.wear.eol.get 0xFFFFFFFE ind = 0))
      ∧ ({ s with wear := t.wear, free := t.free } : State).notesOnly t

/-- Maintenance requests, activities, windows and wear samples (readings of the model: log 49, 86, 122): `Claims.MaintRequestRows`, `Claims.MaintEndRows`, `Claims.WearDayRow`. -/
def Obligations.MaintenanceRows : Prop := Claims.MaintRequestRows ∧ Claims.MaintEndRows ∧ Claims.WearDayRow



/-! ### Order, refused loads, absent pages -/

/-- The order in which exact terms reach a plane has no effect on it: accumulators, drops, overflows and overflowed terms are the same (R36,
R109). -/
def Obligations.PlaneOrderHasNoEffect : Prop :=
  ∀ (p : PlaneSt) (ts us : List Term), p.acc.wf 0 = true → ts.Perm us → p.addTerms ts = p.addTerms us

/-- JOB_LOAD with a job loaded is refused, whatever operation it names, with JOB_ACTIVE once the module may load jobs at all, and the loaded job
continues unaffected (R3). That the life cycle and a tamper event are looked at first is the model's choice (log entry 76). -/
def Obligations.LoadWhileLoadedIsRefused : Prop :=
  ∀ (s : State) (p : Packet) (b : JobBundle) (i : Nat), s.job.bundles = [] → s.job.state ≠ .none →
    firstCopy { s with job := { s.job with bundles := [⟨p.cmd, b⟩] } } p 0x0104 i → p.payload.length = 16 →
    completes (.jobLoad p b) s fun t =>
      s.notesOnly t ∧ (∃ e ∈ t.mrn.cache, e.cmd = p.cmd ∧ e.running = false ∧ e.status ≠ 0)
      ∧ (s.trust.fuses.lc = 1 ∨ s.trust.fuses.lc = 2 → s.trust.tamper = 0 → resulted t i p.cmd 0x0102 [])

/-- The page of a unit that is absent reads 0xFFFF_0000 as PAGE_ID and zero as every other word, PRESENT included, and ignores writes; that
of a unit that is present carries its block and instance and PRESENT, whatever job is loaded (R625). -/
def Obligations.AbsentUnitsPage : Prop :=
  ∀ (s : State) (page : Nat),
    (s.pagePresent page = false →
      s.readReg page 0 = 0xFFFF0000 ∧ (∀ off, off ≠ 0 → s.readReg page off = 0)
      ∧ ∀ off v origin, s.writeReg page off v origin = s) ∧
    (s.pagePresent page = true →
      (s.readReg page 0).toNat = (pageBlock page).1 * 2 ^ 16 + (pageBlock page).2 ∧ (s.readReg page 0x10).getLsbD 0 = true) ∧
    ∀ j, ({ s with job := j } : State).pagePresent page = s.pagePresent page

/-- A power-on whose coolant inlet reads above 45 °C fails at its first step, with PG held low (R688). -/
def Obligations.WarmInletFailsPowerOn : Prop :=
  ∀ (s : State) (u : PowerUp), s.power.pwrEn = false → s.power.pg = false → 40000 ≤ u.vin → 450 < u.inlet →
    completes (.powerOn u) s fun t => t.power.failed = true ∧ t.power.pg = false ∧ t.mrn.bootCount = s.mrn.bootCount

/-- The route between any two of the dies C0–C3 (0–3), Q0 (4) and Q1 (5), with the mortar links that it crosses: their own link where they
share one; between compute dies the row first; between a quoin and a compute die that it does not serve the die of the same row that it
serves; between the quoins bit 9 of the destination address chooses the row (R25, R26). The 64 granules of 512 bytes in a stretch of 32 KiB of
a die lie on 64 different stratum channels, and 0x0140_0000_1200 lies on channel 9 of Q1, module channel 41, in package 10 (R357, R360). -/
def Obligations.RoutesAndChannels : Prop :=
  (∀ e ∈ ([(0, 1, [0, 1], [0]), (0, 2, [0, 2], [2]), (0, 3, [0, 1, 3], [0, 3]), (0, 4, [0, 4], [4]), (0, 5, [0, 1, 5], [0, 6]),
      (1, 0, [1, 0], [0]), (1, 2, [1, 0, 2], [0, 2]), (1, 3, [1, 3], [3]), (1, 4, [1, 0, 4], [0, 4]), (1, 5, [1, 5], [6]),
      (2, 0, [2, 0], [2]), (2, 1, [2, 3, 1], [1, 3]), (2, 3, [2, 3], [1]), (2, 4, [2, 4], [5]), (2, 5, [2, 3, 5], [1, 7]),
      (3, 0, [3, 2, 0], [1, 2]), (3, 1, [3, 1], [3]), (3, 2, [3, 2], [1]), (3, 4, [3, 2, 4], [1, 5]), (3, 5, [3, 5], [7]),
      (4, 0, [4, 0], [4]), (4, 1, [4, 0, 1], [4, 0]), (4, 2, [4, 2], [5]), (4, 3, [4, 2, 3], [5, 1]),
      (5, 0, [5, 1, 0], [6, 0]), (5, 1, [5, 1], [6]), (5, 2, [5, 3, 2], [7, 1]), (5, 3, [5, 3], [7])]
      : List (Nat × Nat × List Nat × List Nat)),
    ∀ a, routeDies e.1 e.2.1 a = e.2.2.1 ∧ routeLinks e.1 e.2.1 a = e.2.2.2) ∧
  (∀ a, routeDies 4 5 a = (if bit a 9 = true then [4, 2, 3, 5] else [4, 0, 1, 5])
    ∧ routeDies 5 4 a = (if bit a 9 = true then [5, 3, 2, 4] else [5, 1, 0, 4])
    ∧ routeLinks 4 5 a = (if bit a 9 = true then [5, 1, 7] else [4, 0, 6])
    ∧ routeLinks 5 4 a = (if bit a 9 = true then [7, 1, 5] else [6, 0, 4])) ∧
  (∀ a i j, i < 64 → j < 64 → stratumChannel (32768 * a + 512 * i) = stratumChannel (32768 * a + 512 * j) → i = j) ∧
  moduleQuoin 0x014000001200 = 1 ∧ quoinChannel 0x014000001200 = 9 ∧ moduleChannel 0x014000001200 = 41
    ∧ packageOf (moduleChannel 0x014000001200) = 10

/-! ### The step, the reset and the encoding -/

/-- A step takes the command at the front of the queue and is exec of it on the state with the queue's rest; every command answers a next
state. -/
def Obligations.StepTakesTheFront : Prop :=
  (∀ (c : Instr) (s : State) (rest : List Instr), step { s with pending := c :: rest } = exec c { s with pending := rest }) ∧
  ∀ (c : Instr) (s : State), ∃ t, exec c s = .next t

/-- With nothing waiting a step is a cycle: while the module has power the stamps of Q0, Q1 and every die that is awake count one more modulo
2^48, and a free value may mark a word or a line of DRAM as failing, of which a line's bytes are then open; nothing else changes, but that a
firmware slot being programmed is finished. That an empty queue lets the clock run, and what it ends, is the model's choice (log entries 1, 112
and 121); the stamps are R50's. -/
def Obligations.IdleStepCountsStamps : Prop :=
  ∀ (s : State), s.pending = [] → s.stamps.wf 0 = true →
    (∀ op img, s.trust.slotWrite = some (op, img) → s.capTesting = false →
      ∃ t, step s = .next t ∧ t.trust = { s.trust with fw := img, imageTimer := true, slotWrite := none } ∧ t.job = s.job ∧ t.sp = s.sp) ∧
    (s.trust.slotWrite = none ∨ s.capTesting = true → s.memOk = true →
      ∃ t, step s = .next t ∧ t = { s with stamps := t.stamps, mem := t.mem, bad := t.bad, soft := t.soft, free := t.free } ∧
        (s.power.pg = false → t = s) ∧
        (s.power.pg = true → ∀ d,
          t.stamp d = if d = 4 ∨ d = 5 ∨ (d < 4 ∧ (s.die d).awake = true) then (s.stamp d + 1) % 2 ^ 48 else s.stamp d) ∧
        (∀ l ∈ s.bad, l ∈ t.bad) ∧ (∀ l ∈ t.bad, l ∉ s.bad → ∃ w, Config.upset s.free = some (true, w) ∧ l = w / 8) ∧
        (∀ w ∈ s.soft, w ∈ t.soft) ∧ (∀ w ∈ t.soft, w ∉ s.soft → Config.upset s.free = some (false, w)) ∧
        ∀ b, t.mem.get 0 b ≠ s.mem.get 0 b → b / 64 ∈ t.bad ∧ ∃ w, Config.upset s.free = some (true, w) ∧ b / 64 = w / 8)

/-- At reset the registers read the reset values that the spec's tables give them, the module has no power and no job, nothing waits,
every present unit is in service without events, errors or counts, and memory lists nothing (R389–R391, R466, R513, R555, R599, R600,
R624, R668–R670). -/
def Obligations.ResetRegisters : Prop :=
  let s := State.reset
  s.pending = [] ∧ s.power.pg = false ∧ s.job.state = .none ∧ s.memOk = true ∧ s.mem = [] ∧
  (∀ e ∈ ([(pgPWR, 0x40, 0x202), (pgPWR, 0x44, 0), (pgSAG, 0x44, 0x64), (pgTRD, 0x54, 0x3E8), (pgTRD, 0x70, 0), (pgSNP, 0x40, 0),
      (pgSNP, 0x44, 0), (pgSNP, 0x4C, 0), (pgSNP, 0x50, 0x186A0), (pgTRC, 0x48, 0x1FF), (pgTRC, 0x4C, 0x00640019),
      (pgTRC, 0x50, 0x03E81388), (pgTRC, 0x64, 0), (pgTRC, 0x78, 0), (pgWEAR, 0x58, 0x5A), (pgMNT, 0x48, 0x2710),
      (pgMNT, 0x4C, 0x181800A8), (pgETH 0, 0x40, 0x9), (pgETH 7, 0x40, 0x9), (pgETH 0, 0x50, 0), (pgETH 0, 0x54, 0),
      (pgETH 0, 0x7C, 0xB038), (pgMRN 0, 0x40, 0), (pgMRN 1, 0x40, 0), (pgMRN 0, 0x48, 0x7530C350), (pgMRN 0, 0x4C, 0x00020014), (pgMRN 0, 0x50, 0x03E803E8),
      (pgMRN 0, 0x54, 0x00050032), (pgMRN 0, 0x58, 0x001E0040), (pgSTR 0, 0x44, 0x18), (pgLPD 1, 0x58, 0x18),
      (pgEVT, 0x40, 0)] : List (Nat × Nat × W32)),
    s.readReg e.1 e.2.1 = e.2.2) ∧
  (∀ page, s.pagePresent page = true →
    s.readReg page 0x0C = 1 ∧ s.readReg page 0x10 = 1 ∧ s.readReg page 0x14 = 0 ∧ s.readReg page 0x18 = 0 ∧ s.readReg page 0x20 = 0)

/-- Memory keeps its canonical form (addresses strictly rising, no byte listed that an unlisted address reads as) at every step, whatever
command runs. -/
def Obligations.MemoryStaysCanonical : Prop :=
  ∀ (s t : State), s.memOk = true → step s = .next t → t.memOk = true

/-- Every well-formed spindle instruction decodes back from its 64-bit word with every operand, and a word that decodes is the word of
what it decodes to, which is well-formed (R286–R311). -/
def Obligations.SpindleWordsRoundTrip : Prop :=
  (∀ i : SpInstr, i.wf = true → decodeSp (encodeSp i) = some i) ∧
  ∀ (w : W64) (i : SpInstr), decodeSp w = some i → encodeSp i = w ∧ i.wf = true

/-- Words written out from the encoding tables decode to the instructions they stand for, and words with a bit that no field uses, a MODE of
0b11 or a reserved OP decode to nothing (R286–R290, R293, R299, R301, R309). -/
def Obligations.WordsDecode : Prop :=
  decodeSp 0x0100184400000000 = some (.alu .add 3 1 2) ∧
  decodeSp 0x03181234567890AB = some (.li 3 0x1234567890AB) ∧
  decodeSp 0x0800004400000010 = some (.branch .eq 1 2 16) ∧
  decodeSp 0x0C00000000000000 = some .endProg ∧
  decodeSp 0x200320443D000000 = some (.vf .fma 4 1 2 3 ⟨true, 5⟩) ∧
  decodeSp 0x3004004000000000 = some (.fmmLdw .n8 1 false) ∧
  decodeSp 0x4400184400000000 = some (.knot .add 3 1 2) ∧
  decodeSp 0x0C00000000000001 = none ∧
  decodeSp 0x0000000000000000 = none ∧
  decodeSp 0x28042044002C0000 = none
end

