-- ==== Sys2Proof/Laws/Tile.lean ====
section
/-!
SUPPORT. Tile images: sealing an image with its checksum changes nothing else of it, and a sealed image passes the first checks at use.
-/
namespace Sys2Proof.Machine

theorem leNat_leBytes (n v : Nat) : leNat (leBytes n v) = v % 256 ^ n := by
  induction n generalizing v with
  | zero => simp [leBytes, leNat, Nat.mod_one]
  | succ n ih =>
    simp only [leBytes, leNat, ih, BitVec.toNat_ofNat]
    have h := Nat.mod_mul (x := v) (a := 256) (b := 256 ^ n)
    rw [show 256 ^ (n + 1) = 256 * 256 ^ n from Nat.pow_succ', h]

@[simp] theorem leBytes_length (n v : Nat) : (leBytes n v).length = n := by
  induction n generalizing v with
  | zero => rfl
  | succ n ih => simp [leBytes, ih]

@[simp] theorem zeros_length (n : Nat) : (zeros n).length = n := by simp [zeros]

/-- A field read within the first part of a string. -/
theorem leAt_append {a b : Bytes} {o n : Nat} (h : o + n ≤ a.length) : leAt (a ++ b) o n = leAt a o n := by
  have h1 : n ≤ (a.drop o).length := by simp; omega
  simp [leAt, List.drop_append_of_le_length (show o ≤ a.length by omega), List.take_append_of_le_length h1]

/-- An image that is sealed is itself but for the four bytes of TD_CRC. -/
theorem sealImage_eq {img : Bytes} (h : 28 ≤ img.length) :
    sealImage img = img.take 24 ++ leBytes 4 (tileCrc img).toNat ++ img.drop 28 := by
  simp [sealImage, patch, fitBytes, zeros, show 24 - img.length = 0 by omega]

theorem sealImage_length {img : Bytes} (h : 28 ≤ img.length) : (sealImage img).length = img.length := by
  simp [sealImage_eq h]; omega

theorem sealImage_crc {img : Bytes} (h : 28 ≤ img.length) : leAt (sealImage img) 24 4 = (tileCrc img).toNat := by
  have h1 : (img.take 24).length = 24 := by simp; omega
  rw [sealImage_eq h, leAt, List.append_assoc, List.drop_append_of_le_length (by omega), List.drop_eq_nil_of_le (by omega),
    List.nil_append, List.take_append_of_le_length (by simp), List.take_of_length_le (by simp), leNat_leBytes]
  exact Nat.mod_eq_of_lt (tileCrc img).isLt

theorem sealImage_drop {img : Bytes} {o : Nat} (h : 28 ≤ img.length) (ho : 28 ≤ o) : (sealImage img).drop o = img.drop o := by
  have h1 : (img.take 24 ++ leBytes 4 (tileCrc img).toNat).length = 28 := by simp; omega
  rw [sealImage_eq h, List.drop_append, List.drop_eq_nil_of_le (by omega), List.nil_append, List.drop_drop]
  congr 1
  omega

theorem sealImage_leAt {img : Bytes} {o n : Nat} (h : 28 ≤ img.length) (ho : o + n ≤ 24 ∨ 28 ≤ o) :
    leAt (sealImage img) o n = leAt img o n := by
  rcases ho with ho | ho
  · have h1 : (img.take 24).length = 24 := by simp; omega
    have h2 : leAt img o n = leAt (img.take 24) o n := by
      have := leAt_append (b := img.drop 24) (show o + n ≤ (img.take 24).length by omega)
      rwa [List.take_append_drop] at this
    rw [sealImage_eq h, List.append_assoc, leAt_append (by omega), h2]
  · simp only [leAt, sealImage_drop h ho]

/-- Sealing leaves the checksum as it was: TD_CRC counts as zero in it (R83). -/
theorem tileCrc_sealImage {img : Bytes} (h : 28 ≤ img.length) : tileCrc (sealImage img) = tileCrc img := by
  have h1 : (img.take 24).length = 24 := by simp; omega
  have ht : (sealImage img).take 24 = img.take 24 := by
    rw [sealImage_eq h, List.append_assoc, List.take_append_of_le_length (by omega), List.take_of_length_le (by omega)]
  unfold tileCrc
  rw [sealImage_length h, sealImage_drop h (by omega), ht]

/-- The descriptor of a sealed image. -/
theorem parse_sealImage {img : Bytes} (h : 28 ≤ img.length) :
    Desc.parse (sealImage img) = { Desc.parse img with crc := (tileCrc img).toNat } := by
  simp only [Desc.parse, sealImage_crc h, sealImage_leAt h (show 0 + 1 ≤ 24 ∨ _ from .inl (by omega)),
    sealImage_leAt h (show 1 + 1 ≤ 24 ∨ _ from .inl (by omega)), sealImage_leAt h (show 2 + 1 ≤ 24 ∨ _ from .inl (by omega)),
    sealImage_leAt h (show 3 + 1 ≤ 24 ∨ _ from .inl (by omega)), sealImage_leAt h (show 4 + 4 ≤ 24 ∨ _ from .inl (by omega)),
    sealImage_leAt h (show 8 + 3 ≤ 24 ∨ _ from .inl (by omega)), sealImage_leAt h (show 11 + 3 ≤ 24 ∨ _ from .inl (by omega)),
    sealImage_leAt h (show 14 + 2 ≤ 24 ∨ _ from .inl (by omega)), sealImage_leAt h (show 16 + 4 ≤ 24 ∨ _ from .inl (by omega)),
    sealImage_leAt h (show 20 + 2 ≤ 24 ∨ _ from .inl (by omega)), sealImage_drop h (show 28 ≤ 32 by omega)]

theorem fitBytes_self {bs : Bytes} {n : Nat} (h : bs.length = n) : fitBytes n bs = bs := by
  subst h; simp [fitBytes, zeros]

/-- A sealed image whose descriptor is in order passes steps 1 to 4 of the checks at use (R86). -/
theorem checkHead_sealImage {img : Bytes} (h : 28 ≤ img.length) (hl : (Desc.parse img).length = some img.length)
    (hv : (Desc.parse img).version = 1)
    (hf : ∃ f, Fmt.ofCode (Desc.parse img).format = some f ∧ f ≠ .n4b ∧ (Desc.parse img).payloadLen = f.payloadLen
      ∧ (Desc.parse img).format = f.code)
    (hs : (Desc.parse img).sideCount = 0) (he : (Desc.parse img).extCount = 0) :
    checkHead (sealImage img) = .ok (Desc.parse (sealImage img)) := by
  obtain ⟨f, hf, hn, hp, hc⟩ := hf
  have hl' : (Desc.parse (sealImage img)).length = some img.length := by rw [parse_sealImage h]; exact hl
  have hg : (f.code == 2) = false := by cases f <;> simp_all [Fmt.code]
  have hd := parse_sealImage h
  unfold checkHead
  simp only [hl', fitBytes_self (sealImage_length h), tileCrc_sealImage h]
  have h48 : (f.code == 48) = false := by cases f <;> rfl
  simp [hd, hv, hp, hs, he, hc, hg, h48]
  simp [hc] at hf
  simp [hf]

/-- The same of a sealed transfer image (R133, R136). -/
theorem checkHead_sealXf {img : Bytes} (h : 28 ≤ img.length) (hl : (Desc.parse img).length = some img.length)
    (hv : (Desc.parse img).version = 1) (hf : (Desc.parse img).format = 0x30) (hp : (Desc.parse img).payloadLen = 98304)
    (ha : (Desc.parse img).axis = 0) (hs : (Desc.parse img).sideCount = 0) (he : (Desc.parse img).extCount = 0) :
    checkHead (sealImage img) = .ok (Desc.parse (sealImage img)) := by
  have hl' : (Desc.parse (sealImage img)).length = some img.length := by rw [parse_sealImage h]; exact hl
  have hd := parse_sealImage h
  have hn : Fmt.ofCode 48 = none := rfl
  unfold checkHead
  simp only [hl', fitBytes_self (sealImage_length h), tileCrc_sealImage h]
  simp [hd, hv, hp, ha, hs, he, hf, hn]

/-- A transfer image past its first checks gives the half that must be VALID, with the passes behind it (R133, R136). -/
theorem checkXf_some {img : Bytes} {d : Desc} {k : Nat} (hd : checkHead img = .ok d) (hf : d.format = 0x30) (hk : k < 2)
    (hb : bit (leAt img 0x4C 1) k = true) :
    ∃ hs h, checkXf img (some k) = .ok (d, hs) ∧ hs.getD k none = some h ∧ h.passes = leAt img (0x50 + 4 * k) 4 := by
  obtain rfl | rfl : k = 0 ∨ k = 1 := by omega
  all_goals simp [checkXf, xfHalfOf, hd, hf, hb]

theorem packCodes_length (w : Nat) (codes : Nat → Nat) : (packCodes w codes).length = 512 * w := by
  have h : ∀ l : List Nat, (l.flatMap fun g =>
      leBytes w ((List.range 8).foldl (fun acc k => acc + codes (8 * g + k) % 2 ^ w * 2 ^ (w * k)) 0)).length = l.length * w := by
    intro l
    induction l with
    | nil => simp
    | cons a l ih => rw [List.flatMap_cons, List.length_append, ih, leBytes_length, List.length_cons, Nat.succ_mul, Nat.add_comm]
  rw [packCodes, h, List.length_range]

theorem descBytes_length (format axis : Nat) (sd : DescSeed) (a b c : Nat) : (descBytes format axis sd a b c).length = 64 := by
  simp only [descBytes, List.length_append, leBytes_length, zeros_length]
  split <;> simp [fitBytes]
  omega

/-- The stored length of an image without a side list (R72, R73). -/
theorem buildImage_length (f : Fmt) (axis : Nat) (sd : DescSeed) (exps codes : Nat → Nat) :
    (buildImage f axis sd exps codes []).length = 0x1C0 + f.payloadLen := by
  have hp : 512 * f.bits = f.payloadLen := by cases f <;> rfl
  have hr : roundUp (448 + f.payloadLen) 64 = 448 + f.payloadLen := by cases f <;> rfl
  have hl : (descBytes f.code axis sd 0 f.payloadLen 0 ++ (List.range 128).map (fun b => BitVec.ofNat 8 (exps b)) ++ fitBytes 256 []
      ++ packCodes f.bits codes ++ []).length = 448 + f.payloadLen := by
    simp [descBytes_length, packCodes_length, hp, fitBytes]
    omega
  have hs := sealImage_length (img := descBytes f.code axis sd 0 f.payloadLen 0 ++ (List.range 128).map (fun b => BitVec.ofNat 8 (exps b))
      ++ fitBytes 256 [] ++ packCodes f.bits codes ++ []) (by omega)
  simp only [buildImage, List.length_nil, List.take_nil, List.drop_nil, List.flatMap_nil, Nat.zero_min, Nat.zero_sub, List.length_append,
    zeros_length] at *
  rw [hs, hl, hr]
  omega

end Sys2Proof.Machine
end

