-- ==== Sys2Proof/Laws/Edwards.lean ====
section
/-!
SUPPORT. The neutral point of the curve: sums and multiples of it are neutral, so the signature of two neutral parts verifies against the
neutral key whatever the message.
-/
namespace Sys2Proof.Machine

/-- The neutral point, up to a factor. -/
def EdPoint.neutral (p : EdPoint) : Prop := p.x = 0 ∧ p.y = p.z

theorem fSub_zero {a : Nat} (h : a < p448) : fSub a 0 = a := by
  simp only [fSub, Nat.zero_mod, Nat.sub_zero, Nat.add_mod_right, Nat.mod_eq_of_lt h]

theorem fSub_self {a : Nat} (h : a < p448) : fSub a a = 0 := by
  rw [fSub, Nat.mod_eq_of_lt h, Nat.add_sub_cancel_left, Nat.mod_self]

theorem EdPoint.add_neutral {p q : EdPoint} (hp : p.neutral) (hq : q.neutral) : (p.add q).neutral := by
  obtain ⟨hx, hy⟩ := hp
  obtain ⟨kx, ky⟩ := hq
  have hpos : 0 < p448 := by decide +kernel
  have ha : p.z * q.z % p448 < p448 := Nat.mod_lt _ hpos
  generalize hA : p.z * q.z % p448 = a at ha
  have hb : a * a % p448 < p448 := Nat.mod_lt _ hpos
  have e : p.add q = ⟨0, a * (a * a % p448) % p448 * a % p448, a * a % p448 * (a * a % p448) % p448⟩ := by
    simp only [EdPoint.add, hx, hy, kx, ky, hA, Nat.zero_mul, Nat.mul_zero, Nat.zero_mod, fSub_zero hb, Nat.add_zero, Nat.mod_mod,
      Nat.zero_add, fSub_zero ha, fSub_self ha]
  rw [e]
  refine ⟨rfl, ?_⟩
  show a * (a * a % p448) % p448 * a % p448 = a * a % p448 * (a * a % p448) % p448
  rw [Nat.mul_mod (a * (a * a % p448) % p448), Nat.mod_mod, ← Nat.mul_mod]
  rw [show a * (a * a % p448) * a = (a * a) * (a * a % p448) by rw [Nat.mul_comm a (a * a % p448), Nat.mul_assoc, Nat.mul_comm]]
  rw [Nat.mul_mod, Nat.mod_mod]

theorem EdPoint.mul_neutral (n k : Nat) {p : EdPoint} (h : p.neutral) : (EdPoint.mul n k p).neutral := by
  induction n generalizing k p with
  | zero => exact ⟨rfl, rfl⟩
  | succ n ih =>
    simp only [EdPoint.mul]
    split
    · exact EdPoint.add_neutral h (ih _ (EdPoint.add_neutral h h))
    · exact ih _ (EdPoint.add_neutral h h)

theorem EdPoint.mul_zero (n : Nat) (p : EdPoint) : EdPoint.mul n 0 p = EdPoint.zero := by
  induction n generalizing p with
  | zero => rfl
  | succ n ih => simp only [EdPoint.mul, Nat.zero_div, ih]; rfl

/-- The encoding of the neutral point, as a key and as either part of a signature. -/
def neutralKey : Bytes := leBytes 57 1
def neutralSig : Bytes := leBytes 57 1 ++ zeros 57

theorem decode_neutralKey : EdPoint.decode neutralKey = some ⟨0, 1, 1⟩ := by
  have hv : leNat (fitBytes 57 neutralKey) = 1 := by decide +kernel
  have h1 : (1 : Nat) % 2 ^ 455 = 1 := by decide +kernel
  have h2 : (1 : Nat) / 2 ^ 455 = 0 := by decide +kernel
  have hp : ¬ p448 ≤ 1 := by decide +kernel
  have hu : fSub (1 * 1 % p448) 1 = 0 := by decide +kernel
  simp only [EdPoint.decode, hv, h1, h2, hu, Nat.zero_mul, Nat.zero_mod, Nat.mul_zero]
  rw [if_neg hp]
  rfl

theorem edVerify_neutral (msg : Bytes) : edVerify neutralKey msg neutralSig = true := by
  have ht : neutralSig.take 57 = neutralKey := by decide +kernel
  have hS : leNat ((neutralSig.drop 57).take 57) = 0 := by decide +kernel
  have hl : neutralSig.length = 114 := by decide
  have ho : decide (0 < order448) = true := by decide +kernel
  have hn : EdPoint.neutral ⟨0, 1, 1⟩ := ⟨rfl, rfl⟩
  unfold edVerify
  simp only [ht, hS, hl, decode_neutralKey, Nat.mul_zero, EdPoint.mul_zero, ho]
  generalize 4 * _ = k
  obtain ⟨hx, hy⟩ := EdPoint.add_neutral (EdPoint.mul_neutral 3 4 hn) (EdPoint.mul_neutral 448 k hn)
  simp [EdPoint.same, EdPoint.zero, hx, hy]

end Sys2Proof.Machine
end

