-- ==== Sys2Proof/Laws/State.lean ====
section
/-!
SUPPORT. What each named update of one part of the state leaves alone: one lemma per field per update, true by definition.
-/
namespace Sys2Proof.Machine

/-! ### setSpindle -/

@[simp] theorem State.setSpindle_pending (s : State) (n : Nat) (x : Spindle) : (s.setSpindle n x).pending = s.pending := rfl
@[simp] theorem State.setSpindle_free (s : State) (n : Nat) (x : Spindle) : (s.setSpindle n x).free = s.free := rfl
@[simp] theorem State.setSpindle_job (s : State) (n : Nat) (x : Spindle) : (s.setSpindle n x).job = s.job := rfl
@[simp] theorem State.setSpindle_mem (s : State) (n : Nat) (x : Spindle) : (s.setSpindle n x).mem = s.mem := rfl
@[simp] theorem State.setSpindle_bad (s : State) (n : Nat) (x : Spindle) : (s.setSpindle n x).bad = s.bad := rfl
@[simp] theorem State.setSpindle_soft (s : State) (n : Nat) (x : Spindle) : (s.setSpindle n x).soft = s.soft := rfl
@[simp] theorem State.setSpindle_sk (s : State) (n : Nat) (x : Spindle) : (s.setSpindle n x).sk = s.sk := rfl
@[simp] theorem State.setSpindle_smp (s : State) (n : Nat) (x : Spindle) : (s.setSpindle n x).smp = s.smp := rfl
@[simp] theorem State.setSpindle_queues (s : State) (n : Nat) (x : Spindle) : (s.setSpindle n x).queues = s.queues := rfl
@[simp] theorem State.setSpindle_engines (s : State) (n : Nat) (x : Spindle) : (s.setSpindle n x).engines = s.engines := rfl
@[simp] theorem State.setSpindle_knots (s : State) (n : Nat) (x : Spindle) : (s.setSpindle n x).knots = s.knots := rfl
@[simp] theorem State.setSpindle_knotWin (s : State) (n : Nat) (x : Spindle) : (s.setSpindle n x).knotWin = s.knotWin := rfl
@[simp] theorem State.setSpindle_waiters (s : State) (n : Nat) (x : Spindle) : (s.setSpindle n x).waiters = s.waiters := rfl
@[simp] theorem State.setSpindle_transit (s : State) (n : Nat) (x : Spindle) : (s.setSpindle n x).transit = s.transit := rfl
@[simp] theorem State.setSpindle_stations (s : State) (n : Nat) (x : Spindle) : (s.setSpindle n x).stations = s.stations := rfl
@[simp] theorem State.setSpindle_gen (s : State) (n : Nat) (x : Spindle) : (s.setSpindle n x).gen = s.gen := rfl
@[simp] theorem State.setSpindle_red (s : State) (n : Nat) (x : Spindle) : (s.setSpindle n x).red = s.red := rfl
@[simp] theorem State.setSpindle_ports (s : State) (n : Nat) (x : Spindle) : (s.setSpindle n x).ports = s.ports := rfl
@[simp] theorem State.setSpindle_mrn (s : State) (n : Nat) (x : Spindle) : (s.setSpindle n x).mrn = s.mrn := rfl
@[simp] theorem State.setSpindle_evtSent (s : State) (n : Nat) (x : Spindle) : (s.setSpindle n x).evtSent = s.evtSent := rfl
@[simp] theorem State.setSpindle_pages (s : State) (n : Nat) (x : Spindle) : (s.setSpindle n x).pages = s.pages := rfl
@[simp] theorem State.setSpindle_rings (s : State) (n : Nat) (x : Spindle) : (s.setSpindle n x).rings = s.rings := rfl
@[simp] theorem State.setSpindle_trace (s : State) (n : Nat) (x : Spindle) : (s.setSpindle n x).trace = s.trace := rfl
@[simp] theorem State.setSpindle_stamps (s : State) (n : Nat) (x : Spindle) : (s.setSpindle n x).stamps = s.stamps := rfl
@[simp] theorem State.setSpindle_bases (s : State) (n : Nat) (x : Spindle) : (s.setSpindle n x).bases = s.bases := rfl
@[simp] theorem State.setSpindle_trd (s : State) (n : Nat) (x : Spindle) : (s.setSpindle n x).trd = s.trd := rfl
@[simp] theorem State.setSpindle_evt (s : State) (n : Nat) (x : Spindle) : (s.setSpindle n x).evt = s.evt := rfl
@[simp] theorem State.setSpindle_mgr (s : State) (n : Nat) (x : Spindle) : (s.setSpindle n x).mgr = s.mgr := rfl
@[simp] theorem State.setSpindle_snap (s : State) (n : Nat) (x : Spindle) : (s.setSpindle n x).snap = s.snap := rfl
@[simp] theorem State.setSpindle_strat (s : State) (n : Nat) (x : Spindle) : (s.setSpindle n x).strat = s.strat := rfl
@[simp] theorem State.setSpindle_lpd (s : State) (n : Nat) (x : Spindle) : (s.setSpindle n x).lpd = s.lpd := rfl
@[simp] theorem State.setSpindle_dies (s : State) (n : Nat) (x : Spindle) : (s.setSpindle n x).dies = s.dies := rfl
@[simp] theorem State.setSpindle_mortars (s : State) (n : Nat) (x : Spindle) : (s.setSpindle n x).mortars = s.mortars := rfl
@[simp] theorem State.setSpindle_ctlOnQ1 (s : State) (n : Nat) (x : Spindle) : (s.setSpindle n x).ctlOnQ1 = s.ctlOnQ1 := rfl
@[simp] theorem State.setSpindle_power (s : State) (n : Nat) (x : Spindle) : (s.setSpindle n x).power = s.power := rfl
@[simp] theorem State.setSpindle_sag (s : State) (n : Nat) (x : Spindle) : (s.setSpindle n x).sag = s.sag := rfl
@[simp] theorem State.setSpindle_trust (s : State) (n : Nat) (x : Spindle) : (s.setSpindle n x).trust = s.trust := rfl
@[simp] theorem State.setSpindle_wear (s : State) (n : Nat) (x : Spindle) : (s.setSpindle n x).wear = s.wear := rfl
@[simp] theorem State.setSpindle_maint (s : State) (n : Nat) (x : Spindle) : (s.setSpindle n x).maint = s.maint := rfl

/-! ### setSkein -/

@[simp] theorem State.setSkein_pending (s : State) (k : Nat) (x : Skein) : (s.setSkein k x).pending = s.pending := rfl
@[simp] theorem State.setSkein_free (s : State) (k : Nat) (x : Skein) : (s.setSkein k x).free = s.free := rfl
@[simp] theorem State.setSkein_job (s : State) (k : Nat) (x : Skein) : (s.setSkein k x).job = s.job := rfl
@[simp] theorem State.setSkein_mem (s : State) (k : Nat) (x : Skein) : (s.setSkein k x).mem = s.mem := rfl
@[simp] theorem State.setSkein_bad (s : State) (k : Nat) (x : Skein) : (s.setSkein k x).bad = s.bad := rfl
@[simp] theorem State.setSkein_soft (s : State) (k : Nat) (x : Skein) : (s.setSkein k x).soft = s.soft := rfl
@[simp] theorem State.setSkein_sp (s : State) (k : Nat) (x : Skein) : (s.setSkein k x).sp = s.sp := rfl
@[simp] theorem State.setSkein_smp (s : State) (k : Nat) (x : Skein) : (s.setSkein k x).smp = s.smp := rfl
@[simp] theorem State.setSkein_queues (s : State) (k : Nat) (x : Skein) : (s.setSkein k x).queues = s.queues := rfl
@[simp] theorem State.setSkein_engines (s : State) (k : Nat) (x : Skein) : (s.setSkein k x).engines = s.engines := rfl
@[simp] theorem State.setSkein_knots (s : State) (k : Nat) (x : Skein) : (s.setSkein k x).knots = s.knots := rfl
@[simp] theorem State.setSkein_knotWin (s : State) (k : Nat) (x : Skein) : (s.setSkein k x).knotWin = s.knotWin := rfl
@[simp] theorem State.setSkein_waiters (s : State) (k : Nat) (x : Skein) : (s.setSkein k x).waiters = s.waiters := rfl
@[simp] theorem State.setSkein_transit (s : State) (k : Nat) (x : Skein) : (s.setSkein k x).transit = s.transit := rfl
@[simp] theorem State.setSkein_stations (s : State) (k : Nat) (x : Skein) : (s.setSkein k x).stations = s.stations := rfl
@[simp] theorem State.setSkein_gen (s : State) (k : Nat) (x : Skein) : (s.setSkein k x).gen = s.gen := rfl
@[simp] theorem State.setSkein_red (s : State) (k : Nat) (x : Skein) : (s.setSkein k x).red = s.red := rfl
@[simp] theorem State.setSkein_ports (s : State) (k : Nat) (x : Skein) : (s.setSkein k x).ports = s.ports := rfl
@[simp] theorem State.setSkein_mrn (s : State) (k : Nat) (x : Skein) : (s.setSkein k x).mrn = s.mrn := rfl
@[simp] theorem State.setSkein_evtSent (s : State) (k : Nat) (x : Skein) : (s.setSkein k x).evtSent = s.evtSent := rfl
@[simp] theorem State.setSkein_pages (s : State) (k : Nat) (x : Skein) : (s.setSkein k x).pages = s.pages := rfl
@[simp] theorem State.setSkein_rings (s : State) (k : Nat) (x : Skein) : (s.setSkein k x).rings = s.rings := rfl
@[simp] theorem State.setSkein_trace (s : State) (k : Nat) (x : Skein) : (s.setSkein k x).trace = s.trace := rfl
@[simp] theorem State.setSkein_stamps (s : State) (k : Nat) (x : Skein) : (s.setSkein k x).stamps = s.stamps := rfl
@[simp] theorem State.setSkein_bases (s : State) (k : Nat) (x : Skein) : (s.setSkein k x).bases = s.bases := rfl
@[simp] theorem State.setSkein_trd (s : State) (k : Nat) (x : Skein) : (s.setSkein k x).trd = s.trd := rfl
@[simp] theorem State.setSkein_evt (s : State) (k : Nat) (x : Skein) : (s.setSkein k x).evt = s.evt := rfl
@[simp] theorem State.setSkein_mgr (s : State) (k : Nat) (x : Skein) : (s.setSkein k x).mgr = s.mgr := rfl
@[simp] theorem State.setSkein_snap (s : State) (k : Nat) (x : Skein) : (s.setSkein k x).snap = s.snap := rfl
@[simp] theorem State.setSkein_strat (s : State) (k : Nat) (x : Skein) : (s.setSkein k x).strat = s.strat := rfl
@[simp] theorem State.setSkein_lpd (s : State) (k : Nat) (x : Skein) : (s.setSkein k x).lpd = s.lpd := rfl
@[simp] theorem State.setSkein_dies (s : State) (k : Nat) (x : Skein) : (s.setSkein k x).dies = s.dies := rfl
@[simp] theorem State.setSkein_mortars (s : State) (k : Nat) (x : Skein) : (s.setSkein k x).mortars = s.mortars := rfl
@[simp] theorem State.setSkein_ctlOnQ1 (s : State) (k : Nat) (x : Skein) : (s.setSkein k x).ctlOnQ1 = s.ctlOnQ1 := rfl
@[simp] theorem State.setSkein_power (s : State) (k : Nat) (x : Skein) : (s.setSkein k x).power = s.power := rfl
@[simp] theorem State.setSkein_sag (s : State) (k : Nat) (x : Skein) : (s.setSkein k x).sag = s.sag := rfl
@[simp] theorem State.setSkein_trust (s : State) (k : Nat) (x : Skein) : (s.setSkein k x).trust = s.trust := rfl
@[simp] theorem State.setSkein_wear (s : State) (k : Nat) (x : Skein) : (s.setSkein k x).wear = s.wear := rfl
@[simp] theorem State.setSkein_maint (s : State) (k : Nat) (x : Skein) : (s.setSkein k x).maint = s.maint := rfl

/-! ### setKnot -/

@[simp] theorem State.setKnot_pending (s : State) (k : Nat) (x : Knot) : (s.setKnot k x).pending = s.pending := rfl
@[simp] theorem State.setKnot_free (s : State) (k : Nat) (x : Knot) : (s.setKnot k x).free = s.free := rfl
@[simp] theorem State.setKnot_job (s : State) (k : Nat) (x : Knot) : (s.setKnot k x).job = s.job := rfl
@[simp] theorem State.setKnot_mem (s : State) (k : Nat) (x : Knot) : (s.setKnot k x).mem = s.mem := rfl
@[simp] theorem State.setKnot_bad (s : State) (k : Nat) (x : Knot) : (s.setKnot k x).bad = s.bad := rfl
@[simp] theorem State.setKnot_soft (s : State) (k : Nat) (x : Knot) : (s.setKnot k x).soft = s.soft := rfl
@[simp] theorem State.setKnot_sp (s : State) (k : Nat) (x : Knot) : (s.setKnot k x).sp = s.sp := rfl
@[simp] theorem State.setKnot_sk (s : State) (k : Nat) (x : Knot) : (s.setKnot k x).sk = s.sk := rfl
@[simp] theorem State.setKnot_smp (s : State) (k : Nat) (x : Knot) : (s.setKnot k x).smp = s.smp := rfl
@[simp] theorem State.setKnot_queues (s : State) (k : Nat) (x : Knot) : (s.setKnot k x).queues = s.queues := rfl
@[simp] theorem State.setKnot_engines (s : State) (k : Nat) (x : Knot) : (s.setKnot k x).engines = s.engines := rfl
@[simp] theorem State.setKnot_knotWin (s : State) (k : Nat) (x : Knot) : (s.setKnot k x).knotWin = s.knotWin := rfl
@[simp] theorem State.setKnot_waiters (s : State) (k : Nat) (x : Knot) : (s.setKnot k x).waiters = s.waiters := rfl
@[simp] theorem State.setKnot_transit (s : State) (k : Nat) (x : Knot) : (s.setKnot k x).transit = s.transit := rfl
@[simp] theorem State.setKnot_stations (s : State) (k : Nat) (x : Knot) : (s.setKnot k x).stations = s.stations := rfl
@[simp] theorem State.setKnot_gen (s : State) (k : Nat) (x : Knot) : (s.setKnot k x).gen = s.gen := rfl
@[simp] theorem State.setKnot_red (s : State) (k : Nat) (x : Knot) : (s.setKnot k x).red = s.red := rfl
@[simp] theorem State.setKnot_ports (s : State) (k : Nat) (x : Knot) : (s.setKnot k x).ports = s.ports := rfl
@[simp] theorem State.setKnot_mrn (s : State) (k : Nat) (x : Knot) : (s.setKnot k x).mrn = s.mrn := rfl
@[simp] theorem State.setKnot_evtSent (s : State) (k : Nat) (x : Knot) : (s.setKnot k x).evtSent = s.evtSent := rfl
@[simp] theorem State.setKnot_pages (s : State) (k : Nat) (x : Knot) : (s.setKnot k x).pages = s.pages := rfl
@[simp] theorem State.setKnot_rings (s : State) (k : Nat) (x : Knot) : (s.setKnot k x).rings = s.rings := rfl
@[simp] theorem State.setKnot_trace (s : State) (k : Nat) (x : Knot) : (s.setKnot k x).trace = s.trace := rfl
@[simp] theorem State.setKnot_stamps (s : State) (k : Nat) (x : Knot) : (s.setKnot k x).stamps = s.stamps := rfl
@[simp] theorem State.setKnot_bases (s : State) (k : Nat) (x : Knot) : (s.setKnot k x).bases = s.bases := rfl
@[simp] theorem State.setKnot_trd (s : State) (k : Nat) (x : Knot) : (s.setKnot k x).trd = s.trd := rfl
@[simp] theorem State.setKnot_evt (s : State) (k : Nat) (x : Knot) : (s.setKnot k x).evt = s.evt := rfl
@[simp] theorem State.setKnot_mgr (s : State) (k : Nat) (x : Knot) : (s.setKnot k x).mgr = s.mgr := rfl
@[simp] theorem State.setKnot_snap (s : State) (k : Nat) (x : Knot) : (s.setKnot k x).snap = s.snap := rfl
@[simp] theorem State.setKnot_strat (s : State) (k : Nat) (x : Knot) : (s.setKnot k x).strat = s.strat := rfl
@[simp] theorem State.setKnot_lpd (s : State) (k : Nat) (x : Knot) : (s.setKnot k x).lpd = s.lpd := rfl
@[simp] theorem State.setKnot_dies (s : State) (k : Nat) (x : Knot) : (s.setKnot k x).dies = s.dies := rfl
@[simp] theorem State.setKnot_mortars (s : State) (k : Nat) (x : Knot) : (s.setKnot k x).mortars = s.mortars := rfl
@[simp] theorem State.setKnot_ctlOnQ1 (s : State) (k : Nat) (x : Knot) : (s.setKnot k x).ctlOnQ1 = s.ctlOnQ1 := rfl
@[simp] theorem State.setKnot_power (s : State) (k : Nat) (x : Knot) : (s.setKnot k x).power = s.power := rfl
@[simp] theorem State.setKnot_sag (s : State) (k : Nat) (x : Knot) : (s.setKnot k x).sag = s.sag := rfl
@[simp] theorem State.setKnot_trust (s : State) (k : Nat) (x : Knot) : (s.setKnot k x).trust = s.trust := rfl
@[simp] theorem State.setKnot_wear (s : State) (k : Nat) (x : Knot) : (s.setKnot k x).wear = s.wear := rfl
@[simp] theorem State.setKnot_maint (s : State) (k : Nat) (x : Knot) : (s.setKnot k x).maint = s.maint := rfl

/-! ### setQueue -/

@[simp] theorem State.setQueue_pending (s : State) (q : Nat) (x : Queue) : (s.setQueue q x).pending = s.pending := rfl
@[simp] theorem State.setQueue_free (s : State) (q : Nat) (x : Queue) : (s.setQueue q x).free = s.free := rfl
@[simp] theorem State.setQueue_job (s : State) (q : Nat) (x : Queue) : (s.setQueue q x).job = s.job := rfl
@[simp] theorem State.setQueue_mem (s : State) (q : Nat) (x : Queue) : (s.setQueue q x).mem = s.mem := rfl
@[simp] theorem State.setQueue_bad (s : State) (q : Nat) (x : Queue) : (s.setQueue q x).bad = s.bad := rfl
@[simp] theorem State.setQueue_soft (s : State) (q : Nat) (x : Queue) : (s.setQueue q x).soft = s.soft := rfl
@[simp] theorem State.setQueue_sp (s : State) (q : Nat) (x : Queue) : (s.setQueue q x).sp = s.sp := rfl
@[simp] theorem State.setQueue_sk (s : State) (q : Nat) (x : Queue) : (s.setQueue q x).sk = s.sk := rfl
@[simp] theorem State.setQueue_smp (s : State) (q : Nat) (x : Queue) : (s.setQueue q x).smp = s.smp := rfl
@[simp] theorem State.setQueue_engines (s : State) (q : Nat) (x : Queue) : (s.setQueue q x).engines = s.engines := rfl
@[simp] theorem State.setQueue_knots (s : State) (q : Nat) (x : Queue) : (s.setQueue q x).knots = s.knots := rfl
@[simp] theorem State.setQueue_knotWin (s : State) (q : Nat) (x : Queue) : (s.setQueue q x).knotWin = s.knotWin := rfl
@[simp] theorem State.setQueue_waiters (s : State) (q : Nat) (x : Queue) : (s.setQueue q x).waiters = s.waiters := rfl
@[simp] theorem State.setQueue_transit (s : State) (q : Nat) (x : Queue) : (s.setQueue q x).transit = s.transit := rfl
@[simp] theorem State.setQueue_stations (s : State) (q : Nat) (x : Queue) : (s.setQueue q x).stations = s.stations := rfl
@[simp] theorem State.setQueue_gen (s : State) (q : Nat) (x : Queue) : (s.setQueue q x).gen = s.gen := rfl
@[simp] theorem State.setQueue_red (s : State) (q : Nat) (x : Queue) : (s.setQueue q x).red = s.red := rfl
@[simp] theorem State.setQueue_ports (s : State) (q : Nat) (x : Queue) : (s.setQueue q x).ports = s.ports := rfl
@[simp] theorem State.setQueue_mrn (s : State) (q : Nat) (x : Queue) : (s.setQueue q x).mrn = s.mrn := rfl
@[simp] theorem State.setQueue_evtSent (s : State) (q : Nat) (x : Queue) : (s.setQueue q x).evtSent = s.evtSent := rfl
@[simp] theorem State.setQueue_pages (s : State) (q : Nat) (x : Queue) : (s.setQueue q x).pages = s.pages := rfl
@[simp] theorem State.setQueue_rings (s : State) (q : Nat) (x : Queue) : (s.setQueue q x).rings = s.rings := rfl
@[simp] theorem State.setQueue_trace (s : State) (q : Nat) (x : Queue) : (s.setQueue q x).trace = s.trace := rfl
@[simp] theorem State.setQueue_stamps (s : State) (q : Nat) (x : Queue) : (s.setQueue q x).stamps = s.stamps := rfl
@[simp] theorem State.setQueue_bases (s : State) (q : Nat) (x : Queue) : (s.setQueue q x).bases = s.bases := rfl
@[simp] theorem State.setQueue_trd (s : State) (q : Nat) (x : Queue) : (s.setQueue q x).trd = s.trd := rfl
@[simp] theorem State.setQueue_evt (s : State) (q : Nat) (x : Queue) : (s.setQueue q x).evt = s.evt := rfl
@[simp] theorem State.setQueue_mgr (s : State) (q : Nat) (x : Queue) : (s.setQueue q x).mgr = s.mgr := rfl
@[simp] theorem State.setQueue_snap (s : State) (q : Nat) (x : Queue) : (s.setQueue q x).snap = s.snap := rfl
@[simp] theorem State.setQueue_strat (s : State) (q : Nat) (x : Queue) : (s.setQueue q x).strat = s.strat := rfl
@[simp] theorem State.setQueue_lpd (s : State) (q : Nat) (x : Queue) : (s.setQueue q x).lpd = s.lpd := rfl
@[simp] theorem State.setQueue_dies (s : State) (q : Nat) (x : Queue) : (s.setQueue q x).dies = s.dies := rfl
@[simp] theorem State.setQueue_mortars (s : State) (q : Nat) (x : Queue) : (s.setQueue q x).mortars = s.mortars := rfl
@[simp] theorem State.setQueue_ctlOnQ1 (s : State) (q : Nat) (x : Queue) : (s.setQueue q x).ctlOnQ1 = s.ctlOnQ1 := rfl
@[simp] theorem State.setQueue_power (s : State) (q : Nat) (x : Queue) : (s.setQueue q x).power = s.power := rfl
@[simp] theorem State.setQueue_sag (s : State) (q : Nat) (x : Queue) : (s.setQueue q x).sag = s.sag := rfl
@[simp] theorem State.setQueue_trust (s : State) (q : Nat) (x : Queue) : (s.setQueue q x).trust = s.trust := rfl
@[simp] theorem State.setQueue_wear (s : State) (q : Nat) (x : Queue) : (s.setQueue q x).wear = s.wear := rfl
@[simp] theorem State.setQueue_maint (s : State) (q : Nat) (x : Queue) : (s.setQueue q x).maint = s.maint := rfl

/-! ### setPage -/

@[simp] theorem State.setPage_pending (s : State) (p : Nat) (x : PageHdr) : (s.setPage p x).pending = s.pending := rfl
@[simp] theorem State.setPage_free (s : State) (p : Nat) (x : PageHdr) : (s.setPage p x).free = s.free := rfl
@[simp] theorem State.setPage_job (s : State) (p : Nat) (x : PageHdr) : (s.setPage p x).job = s.job := rfl
@[simp] theorem State.setPage_mem (s : State) (p : Nat) (x : PageHdr) : (s.setPage p x).mem = s.mem := rfl
@[simp] theorem State.setPage_bad (s : State) (p : Nat) (x : PageHdr) : (s.setPage p x).bad = s.bad := rfl
@[simp] theorem State.setPage_soft (s : State) (p : Nat) (x : PageHdr) : (s.setPage p x).soft = s.soft := rfl
@[simp] theorem State.setPage_sp (s : State) (p : Nat) (x : PageHdr) : (s.setPage p x).sp = s.sp := rfl
@[simp] theorem State.setPage_sk (s : State) (p : Nat) (x : PageHdr) : (s.setPage p x).sk = s.sk := rfl
@[simp] theorem State.setPage_smp (s : State) (p : Nat) (x : PageHdr) : (s.setPage p x).smp = s.smp := rfl
@[simp] theorem State.setPage_queues (s : State) (p : Nat) (x : PageHdr) : (s.setPage p x).queues = s.queues := rfl
@[simp] theorem State.setPage_engines (s : State) (p : Nat) (x : PageHdr) : (s.setPage p x).engines = s.engines := rfl
@[simp] theorem State.setPage_knots (s : State) (p : Nat) (x : PageHdr) : (s.setPage p x).knots = s.knots := rfl
@[simp] theorem State.setPage_knotWin (s : State) (p : Nat) (x : PageHdr) : (s.setPage p x).knotWin = s.knotWin := rfl
@[simp] theorem State.setPage_waiters (s : State) (p : Nat) (x : PageHdr) : (s.setPage p x).waiters = s.waiters := rfl
@[simp] theorem State.setPage_transit (s : State) (p : Nat) (x : PageHdr) : (s.setPage p x).transit = s.transit := rfl
@[simp] theorem State.setPage_stations (s : State) (p : Nat) (x : PageHdr) : (s.setPage p x).stations = s.stations := rfl
@[simp] theorem State.setPage_gen (s : State) (p : Nat) (x : PageHdr) : (s.setPage p x).gen = s.gen := rfl
@[simp] theorem State.setPage_red (s : State) (p : Nat) (x : PageHdr) : (s.setPage p x).red = s.red := rfl
@[simp] theorem State.setPage_ports (s : State) (p : Nat) (x : PageHdr) : (s.setPage p x).ports = s.ports := rfl
@[simp] theorem State.setPage_mrn (s : State) (p : Nat) (x : PageHdr) : (s.setPage p x).mrn = s.mrn := rfl
@[simp] theorem State.setPage_evtSent (s : State) (p : Nat) (x : PageHdr) : (s.setPage p x).evtSent = s.evtSent := rfl
@[simp] theorem State.setPage_rings (s : State) (p : Nat) (x : PageHdr) : (s.setPage p x).rings = s.rings := rfl
@[simp] theorem State.setPage_trace (s : State) (p : Nat) (x : PageHdr) : (s.setPage p x).trace = s.trace := rfl
@[simp] theorem State.setPage_stamps (s : State) (p : Nat) (x : PageHdr) : (s.setPage p x).stamps = s.stamps := rfl
@[simp] theorem State.setPage_bases (s : State) (p : Nat) (x : PageHdr) : (s.setPage p x).bases = s.bases := rfl
@[simp] theorem State.setPage_trd (s : State) (p : Nat) (x : PageHdr) : (s.setPage p x).trd = s.trd := rfl
@[simp] theorem State.setPage_evt (s : State) (p : Nat) (x : PageHdr) : (s.setPage p x).evt = s.evt := rfl
@[simp] theorem State.setPage_mgr (s : State) (p : Nat) (x : PageHdr) : (s.setPage p x).mgr = s.mgr := rfl
@[simp] theorem State.setPage_snap (s : State) (p : Nat) (x : PageHdr) : (s.setPage p x).snap = s.snap := rfl
@[simp] theorem State.setPage_strat (s : State) (p : Nat) (x : PageHdr) : (s.setPage p x).strat = s.strat := rfl
@[simp] theorem State.setPage_lpd (s : State) (p : Nat) (x : PageHdr) : (s.setPage p x).lpd = s.lpd := rfl
@[simp] theorem State.setPage_dies (s : State) (p : Nat) (x : PageHdr) : (s.setPage p x).dies = s.dies := rfl
@[simp] theorem State.setPage_mortars (s : State) (p : Nat) (x : PageHdr) : (s.setPage p x).mortars = s.mortars := rfl
@[simp] theorem State.setPage_ctlOnQ1 (s : State) (p : Nat) (x : PageHdr) : (s.setPage p x).ctlOnQ1 = s.ctlOnQ1 := rfl
@[simp] theorem State.setPage_power (s : State) (p : Nat) (x : PageHdr) : (s.setPage p x).power = s.power := rfl
@[simp] theorem State.setPage_sag (s : State) (p : Nat) (x : PageHdr) : (s.setPage p x).sag = s.sag := rfl
@[simp] theorem State.setPage_trust (s : State) (p : Nat) (x : PageHdr) : (s.setPage p x).trust = s.trust := rfl
@[simp] theorem State.setPage_wear (s : State) (p : Nat) (x : PageHdr) : (s.setPage p x).wear = s.wear := rfl
@[simp] theorem State.setPage_maint (s : State) (p : Nat) (x : PageHdr) : (s.setPage p x).maint = s.maint := rfl

/-! ### setRing -/

@[simp] theorem State.setRing_pending (s : State) (p : Nat) (x : Ring) : (s.setRing p x).pending = s.pending := rfl
@[simp] theorem State.setRing_free (s : State) (p : Nat) (x : Ring) : (s.setRing p x).free = s.free := rfl
@[simp] theorem State.setRing_job (s : State) (p : Nat) (x : Ring) : (s.setRing p x).job = s.job := rfl
@[simp] theorem State.setRing_mem (s : State) (p : Nat) (x : Ring) : (s.setRing p x).mem = s.mem := rfl
@[simp] theorem State.setRing_bad (s : State) (p : Nat) (x : Ring) : (s.setRing p x).bad = s.bad := rfl
@[simp] theorem State.setRing_soft (s : State) (p : Nat) (x : Ring) : (s.setRing p x).soft = s.soft := rfl
@[simp] theorem State.setRing_sp (s : State) (p : Nat) (x : Ring) : (s.setRing p x).sp = s.sp := rfl
@[simp] theorem State.setRing_sk (s : State) (p : Nat) (x : Ring) : (s.setRing p x).sk = s.sk := rfl
@[simp] theorem State.setRing_smp (s : State) (p : Nat) (x : Ring) : (s.setRing p x).smp = s.smp := rfl
@[simp] theorem State.setRing_queues (s : State) (p : Nat) (x : Ring) : (s.setRing p x).queues = s.queues := rfl
@[simp] theorem State.setRing_engines (s : State) (p : Nat) (x : Ring) : (s.setRing p x).engines = s.engines := rfl
@[simp] theorem State.setRing_knots (s : State) (p : Nat) (x : Ring) : (s.setRing p x).knots = s.knots := rfl
@[simp] theorem State.setRing_knotWin (s : State) (p : Nat) (x : Ring) : (s.setRing p x).knotWin = s.knotWin := rfl
@[simp] theorem State.setRing_waiters (s : State) (p : Nat) (x : Ring) : (s.setRing p x).waiters = s.waiters := rfl
@[simp] theorem State.setRing_transit (s : State) (p : Nat) (x : Ring) : (s.setRing p x).transit = s.transit := rfl
@[simp] theorem State.setRing_stations (s : State) (p : Nat) (x : Ring) : (s.setRing p x).stations = s.stations := rfl
@[simp] theorem State.setRing_gen (s : State) (p : Nat) (x : Ring) : (s.setRing p x).gen = s.gen := rfl
@[simp] theorem State.setRing_red (s : State) (p : Nat) (x : Ring) : (s.setRing p x).red = s.red := rfl
@[simp] theorem State.setRing_ports (s : State) (p : Nat) (x : Ring) : (s.setRing p x).ports = s.ports := rfl
@[simp] theorem State.setRing_mrn (s : State) (p : Nat) (x : Ring) : (s.setRing p x).mrn = s.mrn := rfl
@[simp] theorem State.setRing_evtSent (s : State) (p : Nat) (x : Ring) : (s.setRing p x).evtSent = s.evtSent := rfl
@[simp] theorem State.setRing_pages (s : State) (p : Nat) (x : Ring) : (s.setRing p x).pages = s.pages := rfl
@[simp] theorem State.setRing_trace (s : State) (p : Nat) (x : Ring) : (s.setRing p x).trace = s.trace := rfl
@[simp] theorem State.setRing_stamps (s : State) (p : Nat) (x : Ring) : (s.setRing p x).stamps = s.stamps := rfl
@[simp] theorem State.setRing_bases (s : State) (p : Nat) (x : Ring) : (s.setRing p x).bases = s.bases := rfl
@[simp] theorem State.setRing_trd (s : State) (p : Nat) (x : Ring) : (s.setRing p x).trd = s.trd := rfl
@[simp] theorem State.setRing_evt (s : State) (p : Nat) (x : Ring) : (s.setRing p x).evt = s.evt := rfl
@[simp] theorem State.setRing_mgr (s : State) (p : Nat) (x : Ring) : (s.setRing p x).mgr = s.mgr := rfl
@[simp] theorem State.setRing_snap (s : State) (p : Nat) (x : Ring) : (s.setRing p x).snap = s.snap := rfl
@[simp] theorem State.setRing_strat (s : State) (p : Nat) (x : Ring) : (s.setRing p x).strat = s.strat := rfl
@[simp] theorem State.setRing_lpd (s : State) (p : Nat) (x : Ring) : (s.setRing p x).lpd = s.lpd := rfl
@[simp] theorem State.setRing_dies (s : State) (p : Nat) (x : Ring) : (s.setRing p x).dies = s.dies := rfl
@[simp] theorem State.setRing_mortars (s : State) (p : Nat) (x : Ring) : (s.setRing p x).mortars = s.mortars := rfl
@[simp] theorem State.setRing_ctlOnQ1 (s : State) (p : Nat) (x : Ring) : (s.setRing p x).ctlOnQ1 = s.ctlOnQ1 := rfl
@[simp] theorem State.setRing_power (s : State) (p : Nat) (x : Ring) : (s.setRing p x).power = s.power := rfl
@[simp] theorem State.setRing_sag (s : State) (p : Nat) (x : Ring) : (s.setRing p x).sag = s.sag := rfl
@[simp] theorem State.setRing_trust (s : State) (p : Nat) (x : Ring) : (s.setRing p x).trust = s.trust := rfl
@[simp] theorem State.setRing_wear (s : State) (p : Nat) (x : Ring) : (s.setRing p x).wear = s.wear := rfl
@[simp] theorem State.setRing_maint (s : State) (p : Nat) (x : Ring) : (s.setRing p x).maint = s.maint := rfl

/-! ### setDie -/

@[simp] theorem State.setDie_pending (s : State) (d : Nat) (x : Die) : (s.setDie d x).pending = s.pending := rfl
@[simp] theorem State.setDie_free (s : State) (d : Nat) (x : Die) : (s.setDie d x).free = s.free := rfl
@[simp] theorem State.setDie_job (s : State) (d : Nat) (x : Die) : (s.setDie d x).job = s.job := rfl
@[simp] theorem State.setDie_mem (s : State) (d : Nat) (x : Die) : (s.setDie d x).mem = s.mem := rfl
@[simp] theorem State.setDie_bad (s : State) (d : Nat) (x : Die) : (s.setDie d x).bad = s.bad := rfl
@[simp] theorem State.setDie_soft (s : State) (d : Nat) (x : Die) : (s.setDie d x).soft = s.soft := rfl
@[simp] theorem State.setDie_sp (s : State) (d : Nat) (x : Die) : (s.setDie d x).sp = s.sp := rfl
@[simp] theorem State.setDie_sk (s : State) (d : Nat) (x : Die) : (s.setDie d x).sk = s.sk := rfl
@[simp] theorem State.setDie_smp (s : State) (d : Nat) (x : Die) : (s.setDie d x).smp = s.smp := rfl
@[simp] theorem State.setDie_queues (s : State) (d : Nat) (x : Die) : (s.setDie d x).queues = s.queues := rfl
@[simp] theorem State.setDie_engines (s : State) (d : Nat) (x : Die) : (s.setDie d x).engines = s.engines := rfl
@[simp] theorem State.setDie_knots (s : State) (d : Nat) (x : Die) : (s.setDie d x).knots = s.knots := rfl
@[simp] theorem State.setDie_knotWin (s : State) (d : Nat) (x : Die) : (s.setDie d x).knotWin = s.knotWin := rfl
@[simp] theorem State.setDie_waiters (s : State) (d : Nat) (x : Die) : (s.setDie d x).waiters = s.waiters := rfl
@[simp] theorem State.setDie_transit (s : State) (d : Nat) (x : Die) : (s.setDie d x).transit = s.transit := rfl
@[simp] theorem State.setDie_stations (s : State) (d : Nat) (x : Die) : (s.setDie d x).stations = s.stations := rfl
@[simp] theorem State.setDie_gen (s : State) (d : Nat) (x : Die) : (s.setDie d x).gen = s.gen := rfl
@[simp] theorem State.setDie_red (s : State) (d : Nat) (x : Die) : (s.setDie d x).red = s.red := rfl
@[simp] theorem State.setDie_ports (s : State) (d : Nat) (x : Die) : (s.setDie d x).ports = s.ports := rfl
@[simp] theorem State.setDie_mrn (s : State) (d : Nat) (x : Die) : (s.setDie d x).mrn = s.mrn := rfl
@[simp] theorem State.setDie_evtSent (s : State) (d : Nat) (x : Die) : (s.setDie d x).evtSent = s.evtSent := rfl
@[simp] theorem State.setDie_pages (s : State) (d : Nat) (x : Die) : (s.setDie d x).pages = s.pages := rfl
@[simp] theorem State.setDie_rings (s : State) (d : Nat) (x : Die) : (s.setDie d x).rings = s.rings := rfl
@[simp] theorem State.setDie_trace (s : State) (d : Nat) (x : Die) : (s.setDie d x).trace = s.trace := rfl
@[simp] theorem State.setDie_stamps (s : State) (d : Nat) (x : Die) : (s.setDie d x).stamps = s.stamps := rfl
@[simp] theorem State.setDie_bases (s : State) (d : Nat) (x : Die) : (s.setDie d x).bases = s.bases := rfl
@[simp] theorem State.setDie_trd (s : State) (d : Nat) (x : Die) : (s.setDie d x).trd = s.trd := rfl
@[simp] theorem State.setDie_evt (s : State) (d : Nat) (x : Die) : (s.setDie d x).evt = s.evt := rfl
@[simp] theorem State.setDie_mgr (s : State) (d : Nat) (x : Die) : (s.setDie d x).mgr = s.mgr := rfl
@[simp] theorem State.setDie_snap (s : State) (d : Nat) (x : Die) : (s.setDie d x).snap = s.snap := rfl
@[simp] theorem State.setDie_strat (s : State) (d : Nat) (x : Die) : (s.setDie d x).strat = s.strat := rfl
@[simp] theorem State.setDie_lpd (s : State) (d : Nat) (x : Die) : (s.setDie d x).lpd = s.lpd := rfl
@[simp] theorem State.setDie_mortars (s : State) (d : Nat) (x : Die) : (s.setDie d x).mortars = s.mortars := rfl
@[simp] theorem State.setDie_ctlOnQ1 (s : State) (d : Nat) (x : Die) : (s.setDie d x).ctlOnQ1 = s.ctlOnQ1 := rfl
@[simp] theorem State.setDie_power (s : State) (d : Nat) (x : Die) : (s.setDie d x).power = s.power := rfl
@[simp] theorem State.setDie_sag (s : State) (d : Nat) (x : Die) : (s.setDie d x).sag = s.sag := rfl
@[simp] theorem State.setDie_trust (s : State) (d : Nat) (x : Die) : (s.setDie d x).trust = s.trust := rfl
@[simp] theorem State.setDie_wear (s : State) (d : Nat) (x : Die) : (s.setDie d x).wear = s.wear := rfl
@[simp] theorem State.setDie_maint (s : State) (d : Nat) (x : Die) : (s.setDie d x).maint = s.maint := rfl

/-! ### setStratum -/

@[simp] theorem State.setStratum_pending (s : State) (d : Nat) (x : Stratum) : (s.setStratum d x).pending = s.pending := rfl
@[simp] theorem State.setStratum_free (s : State) (d : Nat) (x : Stratum) : (s.setStratum d x).free = s.free := rfl
@[simp] theorem State.setStratum_job (s : State) (d : Nat) (x : Stratum) : (s.setStratum d x).job = s.job := rfl
@[simp] theorem State.setStratum_mem (s : State) (d : Nat) (x : Stratum) : (s.setStratum d x).mem = s.mem := rfl
@[simp] theorem State.setStratum_bad (s : State) (d : Nat) (x : Stratum) : (s.setStratum d x).bad = s.bad := rfl
@[simp] theorem State.setStratum_soft (s : State) (d : Nat) (x : Stratum) : (s.setStratum d x).soft = s.soft := rfl
@[simp] theorem State.setStratum_sp (s : State) (d : Nat) (x : Stratum) : (s.setStratum d x).sp = s.sp := rfl
@[simp] theorem State.setStratum_sk (s : State) (d : Nat) (x : Stratum) : (s.setStratum d x).sk = s.sk := rfl
@[simp] theorem State.setStratum_smp (s : State) (d : Nat) (x : Stratum) : (s.setStratum d x).smp = s.smp := rfl
@[simp] theorem State.setStratum_queues (s : State) (d : Nat) (x : Stratum) : (s.setStratum d x).queues = s.queues := rfl
@[simp] theorem State.setStratum_engines (s : State) (d : Nat) (x : Stratum) : (s.setStratum d x).engines = s.engines := rfl
@[simp] theorem State.setStratum_knots (s : State) (d : Nat) (x : Stratum) : (s.setStratum d x).knots = s.knots := rfl
@[simp] theorem State.setStratum_knotWin (s : State) (d : Nat) (x : Stratum) : (s.setStratum d x).knotWin = s.knotWin := rfl
@[simp] theorem State.setStratum_waiters (s : State) (d : Nat) (x : Stratum) : (s.setStratum d x).waiters = s.waiters := rfl
@[simp] theorem State.setStratum_transit (s : State) (d : Nat) (x : Stratum) : (s.setStratum d x).transit = s.transit := rfl
@[simp] theorem State.setStratum_stations (s : State) (d : Nat) (x : Stratum) : (s.setStratum d x).stations = s.stations := rfl
@[simp] theorem State.setStratum_gen (s : State) (d : Nat) (x : Stratum) : (s.setStratum d x).gen = s.gen := rfl
@[simp] theorem State.setStratum_red (s : State) (d : Nat) (x : Stratum) : (s.setStratum d x).red = s.red := rfl
@[simp] theorem State.setStratum_ports (s : State) (d : Nat) (x : Stratum) : (s.setStratum d x).ports = s.ports := rfl
@[simp] theorem State.setStratum_mrn (s : State) (d : Nat) (x : Stratum) : (s.setStratum d x).mrn = s.mrn := rfl
@[simp] theorem State.setStratum_evtSent (s : State) (d : Nat) (x : Stratum) : (s.setStratum d x).evtSent = s.evtSent := rfl
@[simp] theorem State.setStratum_pages (s : State) (d : Nat) (x : Stratum) : (s.setStratum d x).pages = s.pages := rfl
@[simp] theorem State.setStratum_rings (s : State) (d : Nat) (x : Stratum) : (s.setStratum d x).rings = s.rings := rfl
@[simp] theorem State.setStratum_trace (s : State) (d : Nat) (x : Stratum) : (s.setStratum d x).trace = s.trace := rfl
@[simp] theorem State.setStratum_stamps (s : State) (d : Nat) (x : Stratum) : (s.setStratum d x).stamps = s.stamps := rfl
@[simp] theorem State.setStratum_bases (s : State) (d : Nat) (x : Stratum) : (s.setStratum d x).bases = s.bases := rfl
@[simp] theorem State.setStratum_trd (s : State) (d : Nat) (x : Stratum) : (s.setStratum d x).trd = s.trd := rfl
@[simp] theorem State.setStratum_evt (s : State) (d : Nat) (x : Stratum) : (s.setStratum d x).evt = s.evt := rfl
@[simp] theorem State.setStratum_mgr (s : State) (d : Nat) (x : Stratum) : (s.setStratum d x).mgr = s.mgr := rfl
@[simp] theorem State.setStratum_snap (s : State) (d : Nat) (x : Stratum) : (s.setStratum d x).snap = s.snap := rfl
@[simp] theorem State.setStratum_lpd (s : State) (d : Nat) (x : Stratum) : (s.setStratum d x).lpd = s.lpd := rfl
@[simp] theorem State.setStratum_dies (s : State) (d : Nat) (x : Stratum) : (s.setStratum d x).dies = s.dies := rfl
@[simp] theorem State.setStratum_mortars (s : State) (d : Nat) (x : Stratum) : (s.setStratum d x).mortars = s.mortars := rfl
@[simp] theorem State.setStratum_ctlOnQ1 (s : State) (d : Nat) (x : Stratum) : (s.setStratum d x).ctlOnQ1 = s.ctlOnQ1 := rfl
@[simp] theorem State.setStratum_power (s : State) (d : Nat) (x : Stratum) : (s.setStratum d x).power = s.power := rfl
@[simp] theorem State.setStratum_sag (s : State) (d : Nat) (x : Stratum) : (s.setStratum d x).sag = s.sag := rfl
@[simp] theorem State.setStratum_trust (s : State) (d : Nat) (x : Stratum) : (s.setStratum d x).trust = s.trust := rfl
@[simp] theorem State.setStratum_wear (s : State) (d : Nat) (x : Stratum) : (s.setStratum d x).wear = s.wear := rfl
@[simp] theorem State.setStratum_maint (s : State) (d : Nat) (x : Stratum) : (s.setStratum d x).maint = s.maint := rfl

/-! ### setLpd -/

@[simp] theorem State.setLpd_pending (s : State) (q : Nat) (x : Lpd) : (s.setLpd q x).pending = s.pending := rfl
@[simp] theorem State.setLpd_free (s : State) (q : Nat) (x : Lpd) : (s.setLpd q x).free = s.free := rfl
@[simp] theorem State.setLpd_job (s : State) (q : Nat) (x : Lpd) : (s.setLpd q x).job = s.job := rfl
@[simp] theorem State.setLpd_mem (s : State) (q : Nat) (x : Lpd) : (s.setLpd q x).mem = s.mem := rfl
@[simp] theorem State.setLpd_bad (s : State) (q : Nat) (x : Lpd) : (s.setLpd q x).bad = s.bad := rfl
@[simp] theorem State.setLpd_soft (s : State) (q : Nat) (x : Lpd) : (s.setLpd q x).soft = s.soft := rfl
@[simp] theorem State.setLpd_sp (s : State) (q : Nat) (x : Lpd) : (s.setLpd q x).sp = s.sp := rfl
@[simp] theorem State.setLpd_sk (s : State) (q : Nat) (x : Lpd) : (s.setLpd q x).sk = s.sk := rfl
@[simp] theorem State.setLpd_smp (s : State) (q : Nat) (x : Lpd) : (s.setLpd q x).smp = s.smp := rfl
@[simp] theorem State.setLpd_queues (s : State) (q : Nat) (x : Lpd) : (s.setLpd q x).queues = s.queues := rfl
@[simp] theorem State.setLpd_engines (s : State) (q : Nat) (x : Lpd) : (s.setLpd q x).engines = s.engines := rfl
@[simp] theorem State.setLpd_knots (s : State) (q : Nat) (x : Lpd) : (s.setLpd q x).knots = s.knots := rfl
@[simp] theorem State.setLpd_knotWin (s : State) (q : Nat) (x : Lpd) : (s.setLpd q x).knotWin = s.knotWin := rfl
@[simp] theorem State.setLpd_waiters (s : State) (q : Nat) (x : Lpd) : (s.setLpd q x).waiters = s.waiters := rfl
@[simp] theorem State.setLpd_transit (s : State) (q : Nat) (x : Lpd) : (s.setLpd q x).transit = s.transit := rfl
@[simp] theorem State.setLpd_stations (s : State) (q : Nat) (x : Lpd) : (s.setLpd q x).stations = s.stations := rfl
@[simp] theorem State.setLpd_gen (s : State) (q : Nat) (x : Lpd) : (s.setLpd q x).gen = s.gen := rfl
@[simp] theorem State.setLpd_red (s : State) (q : Nat) (x : Lpd) : (s.setLpd q x).red = s.red := rfl
@[simp] theorem State.setLpd_ports (s : State) (q : Nat) (x : Lpd) : (s.setLpd q x).ports = s.ports := rfl
@[simp] theorem State.setLpd_mrn (s : State) (q : Nat) (x : Lpd) : (s.setLpd q x).mrn = s.mrn := rfl
@[simp] theorem State.setLpd_evtSent (s : State) (q : Nat) (x : Lpd) : (s.setLpd q x).evtSent = s.evtSent := rfl
@[simp] theorem State.setLpd_pages (s : State) (q : Nat) (x : Lpd) : (s.setLpd q x).pages = s.pages := rfl
@[simp] theorem State.setLpd_rings (s : State) (q : Nat) (x : Lpd) : (s.setLpd q x).rings = s.rings := rfl
@[simp] theorem State.setLpd_trace (s : State) (q : Nat) (x : Lpd) : (s.setLpd q x).trace = s.trace := rfl
@[simp] theorem State.setLpd_stamps (s : State) (q : Nat) (x : Lpd) : (s.setLpd q x).stamps = s.stamps := rfl
@[simp] theorem State.setLpd_bases (s : State) (q : Nat) (x : Lpd) : (s.setLpd q x).bases = s.bases := rfl
@[simp] theorem State.setLpd_trd (s : State) (q : Nat) (x : Lpd) : (s.setLpd q x).trd = s.trd := rfl
@[simp] theorem State.setLpd_evt (s : State) (q : Nat) (x : Lpd) : (s.setLpd q x).evt = s.evt := rfl
@[simp] theorem State.setLpd_mgr (s : State) (q : Nat) (x : Lpd) : (s.setLpd q x).mgr = s.mgr := rfl
@[simp] theorem State.setLpd_snap (s : State) (q : Nat) (x : Lpd) : (s.setLpd q x).snap = s.snap := rfl
@[simp] theorem State.setLpd_strat (s : State) (q : Nat) (x : Lpd) : (s.setLpd q x).strat = s.strat := rfl
@[simp] theorem State.setLpd_dies (s : State) (q : Nat) (x : Lpd) : (s.setLpd q x).dies = s.dies := rfl
@[simp] theorem State.setLpd_mortars (s : State) (q : Nat) (x : Lpd) : (s.setLpd q x).mortars = s.mortars := rfl
@[simp] theorem State.setLpd_ctlOnQ1 (s : State) (q : Nat) (x : Lpd) : (s.setLpd q x).ctlOnQ1 = s.ctlOnQ1 := rfl
@[simp] theorem State.setLpd_power (s : State) (q : Nat) (x : Lpd) : (s.setLpd q x).power = s.power := rfl
@[simp] theorem State.setLpd_sag (s : State) (q : Nat) (x : Lpd) : (s.setLpd q x).sag = s.sag := rfl
@[simp] theorem State.setLpd_trust (s : State) (q : Nat) (x : Lpd) : (s.setLpd q x).trust = s.trust := rfl
@[simp] theorem State.setLpd_wear (s : State) (q : Nat) (x : Lpd) : (s.setLpd q x).wear = s.wear := rfl
@[simp] theorem State.setLpd_maint (s : State) (q : Nat) (x : Lpd) : (s.setLpd q x).maint = s.maint := rfl

/-! ### setPort -/

@[simp] theorem State.setPort_pending (s : State) (p : Nat) (x : Port) : (s.setPort p x).pending = s.pending := rfl
@[simp] theorem State.setPort_free (s : State) (p : Nat) (x : Port) : (s.setPort p x).free = s.free := rfl
@[simp] theorem State.setPort_job (s : State) (p : Nat) (x : Port) : (s.setPort p x).job = s.job := rfl
@[simp] theorem State.setPort_mem (s : State) (p : Nat) (x : Port) : (s.setPort p x).mem = s.mem := rfl
@[simp] theorem State.setPort_bad (s : State) (p : Nat) (x : Port) : (s.setPort p x).bad = s.bad := rfl
@[simp] theorem State.setPort_soft (s : State) (p : Nat) (x : Port) : (s.setPort p x).soft = s.soft := rfl
@[simp] theorem State.setPort_sp (s : State) (p : Nat) (x : Port) : (s.setPort p x).sp = s.sp := rfl
@[simp] theorem State.setPort_sk (s : State) (p : Nat) (x : Port) : (s.setPort p x).sk = s.sk := rfl
@[simp] theorem State.setPort_smp (s : State) (p : Nat) (x : Port) : (s.setPort p x).smp = s.smp := rfl
@[simp] theorem State.setPort_queues (s : State) (p : Nat) (x : Port) : (s.setPort p x).queues = s.queues := rfl
@[simp] theorem State.setPort_engines (s : State) (p : Nat) (x : Port) : (s.setPort p x).engines = s.engines := rfl
@[simp] theorem State.setPort_knots (s : State) (p : Nat) (x : Port) : (s.setPort p x).knots = s.knots := rfl
@[simp] theorem State.setPort_knotWin (s : State) (p : Nat) (x : Port) : (s.setPort p x).knotWin = s.knotWin := rfl
@[simp] theorem State.setPort_waiters (s : State) (p : Nat) (x : Port) : (s.setPort p x).waiters = s.waiters := rfl
@[simp] theorem State.setPort_transit (s : State) (p : Nat) (x : Port) : (s.setPort p x).transit = s.transit := rfl
@[simp] theorem State.setPort_stations (s : State) (p : Nat) (x : Port) : (s.setPort p x).stations = s.stations := rfl
@[simp] theorem State.setPort_gen (s : State) (p : Nat) (x : Port) : (s.setPort p x).gen = s.gen := rfl
@[simp] theorem State.setPort_red (s : State) (p : Nat) (x : Port) : (s.setPort p x).red = s.red := rfl
@[simp] theorem State.setPort_mrn (s : State) (p : Nat) (x : Port) : (s.setPort p x).mrn = s.mrn := rfl
@[simp] theorem State.setPort_evtSent (s : State) (p : Nat) (x : Port) : (s.setPort p x).evtSent = s.evtSent := rfl
@[simp] theorem State.setPort_pages (s : State) (p : Nat) (x : Port) : (s.setPort p x).pages = s.pages := rfl
@[simp] theorem State.setPort_rings (s : State) (p : Nat) (x : Port) : (s.setPort p x).rings = s.rings := rfl
@[simp] theorem State.setPort_trace (s : State) (p : Nat) (x : Port) : (s.setPort p x).trace = s.trace := rfl
@[simp] theorem State.setPort_stamps (s : State) (p : Nat) (x : Port) : (s.setPort p x).stamps = s.stamps := rfl
@[simp] theorem State.setPort_bases (s : State) (p : Nat) (x : Port) : (s.setPort p x).bases = s.bases := rfl
@[simp] theorem State.setPort_trd (s : State) (p : Nat) (x : Port) : (s.setPort p x).trd = s.trd := rfl
@[simp] theorem State.setPort_evt (s : State) (p : Nat) (x : Port) : (s.setPort p x).evt = s.evt := rfl
@[simp] theorem State.setPort_mgr (s : State) (p : Nat) (x : Port) : (s.setPort p x).mgr = s.mgr := rfl
@[simp] theorem State.setPort_snap (s : State) (p : Nat) (x : Port) : (s.setPort p x).snap = s.snap := rfl
@[simp] theorem State.setPort_strat (s : State) (p : Nat) (x : Port) : (s.setPort p x).strat = s.strat := rfl
@[simp] theorem State.setPort_lpd (s : State) (p : Nat) (x : Port) : (s.setPort p x).lpd = s.lpd := rfl
@[simp] theorem State.setPort_dies (s : State) (p : Nat) (x : Port) : (s.setPort p x).dies = s.dies := rfl
@[simp] theorem State.setPort_mortars (s : State) (p : Nat) (x : Port) : (s.setPort p x).mortars = s.mortars := rfl
@[simp] theorem State.setPort_ctlOnQ1 (s : State) (p : Nat) (x : Port) : (s.setPort p x).ctlOnQ1 = s.ctlOnQ1 := rfl
@[simp] theorem State.setPort_power (s : State) (p : Nat) (x : Port) : (s.setPort p x).power = s.power := rfl
@[simp] theorem State.setPort_sag (s : State) (p : Nat) (x : Port) : (s.setPort p x).sag = s.sag := rfl
@[simp] theorem State.setPort_trust (s : State) (p : Nat) (x : Port) : (s.setPort p x).trust = s.trust := rfl
@[simp] theorem State.setPort_wear (s : State) (p : Nat) (x : Port) : (s.setPort p x).wear = s.wear := rfl
@[simp] theorem State.setPort_maint (s : State) (p : Nat) (x : Port) : (s.setPort p x).maint = s.maint := rfl

/-! ### setSession -/

@[simp] theorem State.setSession_pending (s : State) (i : Nat) (x : Session) : (s.setSession i x).pending = s.pending := rfl
@[simp] theorem State.setSession_free (s : State) (i : Nat) (x : Session) : (s.setSession i x).free = s.free := rfl
@[simp] theorem State.setSession_job (s : State) (i : Nat) (x : Session) : (s.setSession i x).job = s.job := rfl
@[simp] theorem State.setSession_mem (s : State) (i : Nat) (x : Session) : (s.setSession i x).mem = s.mem := rfl
@[simp] theorem State.setSession_bad (s : State) (i : Nat) (x : Session) : (s.setSession i x).bad = s.bad := rfl
@[simp] theorem State.setSession_soft (s : State) (i : Nat) (x : Session) : (s.setSession i x).soft = s.soft := rfl
@[simp] theorem State.setSession_sp (s : State) (i : Nat) (x : Session) : (s.setSession i x).sp = s.sp := rfl
@[simp] theorem State.setSession_sk (s : State) (i : Nat) (x : Session) : (s.setSession i x).sk = s.sk := rfl
@[simp] theorem State.setSession_smp (s : State) (i : Nat) (x : Session) : (s.setSession i x).smp = s.smp := rfl
@[simp] theorem State.setSession_queues (s : State) (i : Nat) (x : Session) : (s.setSession i x).queues = s.queues := rfl
@[simp] theorem State.setSession_engines (s : State) (i : Nat) (x : Session) : (s.setSession i x).engines = s.engines := rfl
@[simp] theorem State.setSession_knots (s : State) (i : Nat) (x : Session) : (s.setSession i x).knots = s.knots := rfl
@[simp] theorem State.setSession_knotWin (s : State) (i : Nat) (x : Session) : (s.setSession i x).knotWin = s.knotWin := rfl
@[simp] theorem State.setSession_waiters (s : State) (i : Nat) (x : Session) : (s.setSession i x).waiters = s.waiters := rfl
@[simp] theorem State.setSession_transit (s : State) (i : Nat) (x : Session) : (s.setSession i x).transit = s.transit := rfl
@[simp] theorem State.setSession_stations (s : State) (i : Nat) (x : Session) : (s.setSession i x).stations = s.stations := rfl
@[simp] theorem State.setSession_gen (s : State) (i : Nat) (x : Session) : (s.setSession i x).gen = s.gen := rfl
@[simp] theorem State.setSession_red (s : State) (i : Nat) (x : Session) : (s.setSession i x).red = s.red := rfl
@[simp] theorem State.setSession_ports (s : State) (i : Nat) (x : Session) : (s.setSession i x).ports = s.ports := rfl
@[simp] theorem State.setSession_evtSent (s : State) (i : Nat) (x : Session) : (s.setSession i x).evtSent = s.evtSent := rfl
@[simp] theorem State.setSession_pages (s : State) (i : Nat) (x : Session) : (s.setSession i x).pages = s.pages := rfl
@[simp] theorem State.setSession_rings (s : State) (i : Nat) (x : Session) : (s.setSession i x).rings = s.rings := rfl
@[simp] theorem State.setSession_trace (s : State) (i : Nat) (x : Session) : (s.setSession i x).trace = s.trace := rfl
@[simp] theorem State.setSession_stamps (s : State) (i : Nat) (x : Session) : (s.setSession i x).stamps = s.stamps := rfl
@[simp] theorem State.setSession_bases (s : State) (i : Nat) (x : Session) : (s.setSession i x).bases = s.bases := rfl
@[simp] theorem State.setSession_trd (s : State) (i : Nat) (x : Session) : (s.setSession i x).trd = s.trd := rfl
@[simp] theorem State.setSession_evt (s : State) (i : Nat) (x : Session) : (s.setSession i x).evt = s.evt := rfl
@[simp] theorem State.setSession_mgr (s : State) (i : Nat) (x : Session) : (s.setSession i x).mgr = s.mgr := rfl
@[simp] theorem State.setSession_snap (s : State) (i : Nat) (x : Session) : (s.setSession i x).snap = s.snap := rfl
@[simp] theorem State.setSession_strat (s : State) (i : Nat) (x : Session) : (s.setSession i x).strat = s.strat := rfl
@[simp] theorem State.setSession_lpd (s : State) (i : Nat) (x : Session) : (s.setSession i x).lpd = s.lpd := rfl
@[simp] theorem State.setSession_dies (s : State) (i : Nat) (x : Session) : (s.setSession i x).dies = s.dies := rfl
@[simp] theorem State.setSession_mortars (s : State) (i : Nat) (x : Session) : (s.setSession i x).mortars = s.mortars := rfl
@[simp] theorem State.setSession_ctlOnQ1 (s : State) (i : Nat) (x : Session) : (s.setSession i x).ctlOnQ1 = s.ctlOnQ1 := rfl
@[simp] theorem State.setSession_power (s : State) (i : Nat) (x : Session) : (s.setSession i x).power = s.power := rfl
@[simp] theorem State.setSession_sag (s : State) (i : Nat) (x : Session) : (s.setSession i x).sag = s.sag := rfl
@[simp] theorem State.setSession_trust (s : State) (i : Nat) (x : Session) : (s.setSession i x).trust = s.trust := rfl
@[simp] theorem State.setSession_wear (s : State) (i : Nat) (x : Session) : (s.setSession i x).wear = s.wear := rfl
@[simp] theorem State.setSession_maint (s : State) (i : Nat) (x : Session) : (s.setSession i x).maint = s.maint := rfl

/-! ### setStation -/

@[simp] theorem State.setStation_pending (s : State) (n : Nat) (x : Station) : (s.setStation n x).pending = s.pending := rfl
@[simp] theorem State.setStation_free (s : State) (n : Nat) (x : Station) : (s.setStation n x).free = s.free := rfl
@[simp] theorem State.setStation_job (s : State) (n : Nat) (x : Station) : (s.setStation n x).job = s.job := rfl
@[simp] theorem State.setStation_mem (s : State) (n : Nat) (x : Station) : (s.setStation n x).mem = s.mem := rfl
@[simp] theorem State.setStation_bad (s : State) (n : Nat) (x : Station) : (s.setStation n x).bad = s.bad := rfl
@[simp] theorem State.setStation_soft (s : State) (n : Nat) (x : Station) : (s.setStation n x).soft = s.soft := rfl
@[simp] theorem State.setStation_sp (s : State) (n : Nat) (x : Station) : (s.setStation n x).sp = s.sp := rfl
@[simp] theorem State.setStation_sk (s : State) (n : Nat) (x : Station) : (s.setStation n x).sk = s.sk := rfl
@[simp] theorem State.setStation_smp (s : State) (n : Nat) (x : Station) : (s.setStation n x).smp = s.smp := rfl
@[simp] theorem State.setStation_queues (s : State) (n : Nat) (x : Station) : (s.setStation n x).queues = s.queues := rfl
@[simp] theorem State.setStation_engines (s : State) (n : Nat) (x : Station) : (s.setStation n x).engines = s.engines := rfl
@[simp] theorem State.setStation_knots (s : State) (n : Nat) (x : Station) : (s.setStation n x).knots = s.knots := rfl
@[simp] theorem State.setStation_knotWin (s : State) (n : Nat) (x : Station) : (s.setStation n x).knotWin = s.knotWin := rfl
@[simp] theorem State.setStation_waiters (s : State) (n : Nat) (x : Station) : (s.setStation n x).waiters = s.waiters := rfl
@[simp] theorem State.setStation_transit (s : State) (n : Nat) (x : Station) : (s.setStation n x).transit = s.transit := rfl
@[simp] theorem State.setStation_gen (s : State) (n : Nat) (x : Station) : (s.setStation n x).gen = s.gen := rfl
@[simp] theorem State.setStation_red (s : State) (n : Nat) (x : Station) : (s.setStation n x).red = s.red := rfl
@[simp] theorem State.setStation_ports (s : State) (n : Nat) (x : Station) : (s.setStation n x).ports = s.ports := rfl
@[simp] theorem State.setStation_mrn (s : State) (n : Nat) (x : Station) : (s.setStation n x).mrn = s.mrn := rfl
@[simp] theorem State.setStation_evtSent (s : State) (n : Nat) (x : Station) : (s.setStation n x).evtSent = s.evtSent := rfl
@[simp] theorem State.setStation_pages (s : State) (n : Nat) (x : Station) : (s.setStation n x).pages = s.pages := rfl
@[simp] theorem State.setStation_rings (s : State) (n : Nat) (x : Station) : (s.setStation n x).rings = s.rings := rfl
@[simp] theorem State.setStation_trace (s : State) (n : Nat) (x : Station) : (s.setStation n x).trace = s.trace := rfl
@[simp] theorem State.setStation_stamps (s : State) (n : Nat) (x : Station) : (s.setStation n x).stamps = s.stamps := rfl
@[simp] theorem State.setStation_bases (s : State) (n : Nat) (x : Station) : (s.setStation n x).bases = s.bases := rfl
@[simp] theorem State.setStation_trd (s : State) (n : Nat) (x : Station) : (s.setStation n x).trd = s.trd := rfl
@[simp] theorem State.setStation_evt (s : State) (n : Nat) (x : Station) : (s.setStation n x).evt = s.evt := rfl
@[simp] theorem State.setStation_mgr (s : State) (n : Nat) (x : Station) : (s.setStation n x).mgr = s.mgr := rfl
@[simp] theorem State.setStation_snap (s : State) (n : Nat) (x : Station) : (s.setStation n x).snap = s.snap := rfl
@[simp] theorem State.setStation_strat (s : State) (n : Nat) (x : Station) : (s.setStation n x).strat = s.strat := rfl
@[simp] theorem State.setStation_lpd (s : State) (n : Nat) (x : Station) : (s.setStation n x).lpd = s.lpd := rfl
@[simp] theorem State.setStation_dies (s : State) (n : Nat) (x : Station) : (s.setStation n x).dies = s.dies := rfl
@[simp] theorem State.setStation_mortars (s : State) (n : Nat) (x : Station) : (s.setStation n x).mortars = s.mortars := rfl
@[simp] theorem State.setStation_ctlOnQ1 (s : State) (n : Nat) (x : Station) : (s.setStation n x).ctlOnQ1 = s.ctlOnQ1 := rfl
@[simp] theorem State.setStation_power (s : State) (n : Nat) (x : Station) : (s.setStation n x).power = s.power := rfl
@[simp] theorem State.setStation_sag (s : State) (n : Nat) (x : Station) : (s.setStation n x).sag = s.sag := rfl
@[simp] theorem State.setStation_trust (s : State) (n : Nat) (x : Station) : (s.setStation n x).trust = s.trust := rfl
@[simp] theorem State.setStation_wear (s : State) (n : Nat) (x : Station) : (s.setStation n x).wear = s.wear := rfl
@[simp] theorem State.setStation_maint (s : State) (n : Nat) (x : Station) : (s.setStation n x).maint = s.maint := rfl

/-! ### poke and clearMem -/

@[simp] theorem State.poke_pending (s : State) (a : Nat) (bs : Bytes) : (s.poke a bs).pending = s.pending := rfl
@[simp] theorem State.poke_free (s : State) (a : Nat) (bs : Bytes) : (s.poke a bs).free = s.free := rfl
@[simp] theorem State.poke_job (s : State) (a : Nat) (bs : Bytes) : (s.poke a bs).job = s.job := rfl
@[simp] theorem State.poke_sp (s : State) (a : Nat) (bs : Bytes) : (s.poke a bs).sp = s.sp := rfl
@[simp] theorem State.poke_sk (s : State) (a : Nat) (bs : Bytes) : (s.poke a bs).sk = s.sk := rfl
@[simp] theorem State.poke_smp (s : State) (a : Nat) (bs : Bytes) : (s.poke a bs).smp = s.smp := rfl
@[simp] theorem State.poke_queues (s : State) (a : Nat) (bs : Bytes) : (s.poke a bs).queues = s.queues := rfl
@[simp] theorem State.poke_engines (s : State) (a : Nat) (bs : Bytes) : (s.poke a bs).engines = s.engines := rfl
@[simp] theorem State.poke_knots (s : State) (a : Nat) (bs : Bytes) : (s.poke a bs).knots = s.knots := rfl
@[simp] theorem State.poke_knotWin (s : State) (a : Nat) (bs : Bytes) : (s.poke a bs).knotWin = s.knotWin := rfl
@[simp] theorem State.poke_waiters (s : State) (a : Nat) (bs : Bytes) : (s.poke a bs).waiters = s.waiters := rfl
@[simp] theorem State.poke_transit (s : State) (a : Nat) (bs : Bytes) : (s.poke a bs).transit = s.transit := rfl
@[simp] theorem State.poke_stations (s : State) (a : Nat) (bs : Bytes) : (s.poke a bs).stations = s.stations := rfl
@[simp] theorem State.poke_gen (s : State) (a : Nat) (bs : Bytes) : (s.poke a bs).gen = s.gen := rfl
@[simp] theorem State.poke_red (s : State) (a : Nat) (bs : Bytes) : (s.poke a bs).red = s.red := rfl
@[simp] theorem State.poke_ports (s : State) (a : Nat) (bs : Bytes) : (s.poke a bs).ports = s.ports := rfl
@[simp] theorem State.poke_mrn (s : State) (a : Nat) (bs : Bytes) : (s.poke a bs).mrn = s.mrn := rfl
@[simp] theorem State.poke_evtSent (s : State) (a : Nat) (bs : Bytes) : (s.poke a bs).evtSent = s.evtSent := rfl
@[simp] theorem State.poke_pages (s : State) (a : Nat) (bs : Bytes) : (s.poke a bs).pages = s.pages := rfl
@[simp] theorem State.poke_rings (s : State) (a : Nat) (bs : Bytes) : (s.poke a bs).rings = s.rings := rfl
@[simp] theorem State.poke_trace (s : State) (a : Nat) (bs : Bytes) : (s.poke a bs).trace = s.trace := rfl
@[simp] theorem State.poke_stamps (s : State) (a : Nat) (bs : Bytes) : (s.poke a bs).stamps = s.stamps := rfl
@[simp] theorem State.poke_bases (s : State) (a : Nat) (bs : Bytes) : (s.poke a bs).bases = s.bases := rfl
@[simp] theorem State.poke_trd (s : State) (a : Nat) (bs : Bytes) : (s.poke a bs).trd = s.trd := rfl
@[simp] theorem State.poke_evt (s : State) (a : Nat) (bs : Bytes) : (s.poke a bs).evt = s.evt := rfl
@[simp] theorem State.poke_mgr (s : State) (a : Nat) (bs : Bytes) : (s.poke a bs).mgr = s.mgr := rfl
@[simp] theorem State.poke_snap (s : State) (a : Nat) (bs : Bytes) : (s.poke a bs).snap = s.snap := rfl
@[simp] theorem State.poke_strat (s : State) (a : Nat) (bs : Bytes) : (s.poke a bs).strat = s.strat := rfl
@[simp] theorem State.poke_lpd (s : State) (a : Nat) (bs : Bytes) : (s.poke a bs).lpd = s.lpd := rfl
@[simp] theorem State.poke_dies (s : State) (a : Nat) (bs : Bytes) : (s.poke a bs).dies = s.dies := rfl
@[simp] theorem State.poke_mortars (s : State) (a : Nat) (bs : Bytes) : (s.poke a bs).mortars = s.mortars := rfl
@[simp] theorem State.poke_ctlOnQ1 (s : State) (a : Nat) (bs : Bytes) : (s.poke a bs).ctlOnQ1 = s.ctlOnQ1 := rfl
@[simp] theorem State.poke_power (s : State) (a : Nat) (bs : Bytes) : (s.poke a bs).power = s.power := rfl
@[simp] theorem State.poke_sag (s : State) (a : Nat) (bs : Bytes) : (s.poke a bs).sag = s.sag := rfl
@[simp] theorem State.poke_trust (s : State) (a : Nat) (bs : Bytes) : (s.poke a bs).trust = s.trust := rfl
@[simp] theorem State.poke_wear (s : State) (a : Nat) (bs : Bytes) : (s.poke a bs).wear = s.wear := rfl
@[simp] theorem State.poke_maint (s : State) (a : Nat) (bs : Bytes) : (s.poke a bs).maint = s.maint := rfl
@[simp] theorem State.clearMem_pending (s : State) (a n : Nat) : (s.clearMem a n).pending = s.pending := rfl
@[simp] theorem State.clearMem_free (s : State) (a n : Nat) : (s.clearMem a n).free = s.free := rfl
@[simp] theorem State.clearMem_job (s : State) (a n : Nat) : (s.clearMem a n).job = s.job := rfl
@[simp] theorem State.clearMem_sp (s : State) (a n : Nat) : (s.clearMem a n).sp = s.sp := rfl
@[simp] theorem State.clearMem_sk (s : State) (a n : Nat) : (s.clearMem a n).sk = s.sk := rfl
@[simp] theorem State.clearMem_smp (s : State) (a n : Nat) : (s.clearMem a n).smp = s.smp := rfl
@[simp] theorem State.clearMem_queues (s : State) (a n : Nat) : (s.clearMem a n).queues = s.queues := rfl
@[simp] theorem State.clearMem_engines (s : State) (a n : Nat) : (s.clearMem a n).engines = s.engines := rfl
@[simp] theorem State.clearMem_knots (s : State) (a n : Nat) : (s.clearMem a n).knots = s.knots := rfl
@[simp] theorem State.clearMem_knotWin (s : State) (a n : Nat) : (s.clearMem a n).knotWin = s.knotWin := rfl
@[simp] theorem State.clearMem_waiters (s : State) (a n : Nat) : (s.clearMem a n).waiters = s.waiters := rfl
@[simp] theorem State.clearMem_transit (s : State) (a n : Nat) : (s.clearMem a n).transit = s.transit := rfl
@[simp] theorem State.clearMem_stations (s : State) (a n : Nat) : (s.clearMem a n).stations = s.stations := rfl
@[simp] theorem State.clearMem_gen (s : State) (a n : Nat) : (s.clearMem a n).gen = s.gen := rfl
@[simp] theorem State.clearMem_red (s : State) (a n : Nat) : (s.clearMem a n).red = s.red := rfl
@[simp] theorem State.clearMem_ports (s : State) (a n : Nat) : (s.clearMem a n).ports = s.ports := rfl
@[simp] theorem State.clearMem_mrn (s : State) (a n : Nat) : (s.clearMem a n).mrn = s.mrn := rfl
@[simp] theorem State.clearMem_evtSent (s : State) (a n : Nat) : (s.clearMem a n).evtSent = s.evtSent := rfl
@[simp] theorem State.clearMem_pages (s : State) (a n : Nat) : (s.clearMem a n).pages = s.pages := rfl
@[simp] theorem State.clearMem_rings (s : State) (a n : Nat) : (s.clearMem a n).rings = s.rings := rfl
@[simp] theorem State.clearMem_trace (s : State) (a n : Nat) : (s.clearMem a n).trace = s.trace := rfl
@[simp] theorem State.clearMem_stamps (s : State) (a n : Nat) : (s.clearMem a n).stamps = s.stamps := rfl
@[simp] theorem State.clearMem_bases (s : State) (a n : Nat) : (s.clearMem a n).bases = s.bases := rfl
@[simp] theorem State.clearMem_trd (s : State) (a n : Nat) : (s.clearMem a n).trd = s.trd := rfl
@[simp] theorem State.clearMem_evt (s : State) (a n : Nat) : (s.clearMem a n).evt = s.evt := rfl
@[simp] theorem State.clearMem_mgr (s : State) (a n : Nat) : (s.clearMem a n).mgr = s.mgr := rfl
@[simp] theorem State.clearMem_snap (s : State) (a n : Nat) : (s.clearMem a n).snap = s.snap := rfl
@[simp] theorem State.clearMem_strat (s : State) (a n : Nat) : (s.clearMem a n).strat = s.strat := rfl
@[simp] theorem State.clearMem_lpd (s : State) (a n : Nat) : (s.clearMem a n).lpd = s.lpd := rfl
@[simp] theorem State.clearMem_dies (s : State) (a n : Nat) : (s.clearMem a n).dies = s.dies := rfl
@[simp] theorem State.clearMem_mortars (s : State) (a n : Nat) : (s.clearMem a n).mortars = s.mortars := rfl
@[simp] theorem State.clearMem_ctlOnQ1 (s : State) (a n : Nat) : (s.clearMem a n).ctlOnQ1 = s.ctlOnQ1 := rfl
@[simp] theorem State.clearMem_power (s : State) (a n : Nat) : (s.clearMem a n).power = s.power := rfl
@[simp] theorem State.clearMem_sag (s : State) (a n : Nat) : (s.clearMem a n).sag = s.sag := rfl
@[simp] theorem State.clearMem_trust (s : State) (a n : Nat) : (s.clearMem a n).trust = s.trust := rfl
@[simp] theorem State.clearMem_wear (s : State) (a n : Nat) : (s.clearMem a n).wear = s.wear := rfl
@[simp] theorem State.clearMem_maint (s : State) (a n : Nat) : (s.clearMem a n).maint = s.maint := rfl

/-! ### count, resetCounter, latchErr: they change pages only -/

@[simp] theorem State.count_pending (s : State) (p k n : Nat) : (s.count p k n).pending = s.pending := rfl
@[simp] theorem State.count_free (s : State) (p k n : Nat) : (s.count p k n).free = s.free := rfl
@[simp] theorem State.count_job (s : State) (p k n : Nat) : (s.count p k n).job = s.job := rfl
@[simp] theorem State.count_mem (s : State) (p k n : Nat) : (s.count p k n).mem = s.mem := rfl
@[simp] theorem State.count_bad (s : State) (p k n : Nat) : (s.count p k n).bad = s.bad := rfl
@[simp] theorem State.count_soft (s : State) (p k n : Nat) : (s.count p k n).soft = s.soft := rfl
@[simp] theorem State.count_sp (s : State) (p k n : Nat) : (s.count p k n).sp = s.sp := rfl
@[simp] theorem State.count_sk (s : State) (p k n : Nat) : (s.count p k n).sk = s.sk := rfl
@[simp] theorem State.count_smp (s : State) (p k n : Nat) : (s.count p k n).smp = s.smp := rfl
@[simp] theorem State.count_queues (s : State) (p k n : Nat) : (s.count p k n).queues = s.queues := rfl
@[simp] theorem State.count_engines (s : State) (p k n : Nat) : (s.count p k n).engines = s.engines := rfl
@[simp] theorem State.count_knots (s : State) (p k n : Nat) : (s.count p k n).knots = s.knots := rfl
@[simp] theorem State.count_knotWin (s : State) (p k n : Nat) : (s.count p k n).knotWin = s.knotWin := rfl
@[simp] theorem State.count_waiters (s : State) (p k n : Nat) : (s.count p k n).waiters = s.waiters := rfl
@[simp] theorem State.count_transit (s : State) (p k n : Nat) : (s.count p k n).transit = s.transit := rfl
@[simp] theorem State.count_stations (s : State) (p k n : Nat) : (s.count p k n).stations = s.stations := rfl
@[simp] theorem State.count_gen (s : State) (p k n : Nat) : (s.count p k n).gen = s.gen := rfl
@[simp] theorem State.count_red (s : State) (p k n : Nat) : (s.count p k n).red = s.red := rfl
@[simp] theorem State.count_ports (s : State) (p k n : Nat) : (s.count p k n).ports = s.ports := rfl
@[simp] theorem State.count_mrn (s : State) (p k n : Nat) : (s.count p k n).mrn = s.mrn := rfl
@[simp] theorem State.count_evtSent (s : State) (p k n : Nat) : (s.count p k n).evtSent = s.evtSent := rfl
@[simp] theorem State.count_rings (s : State) (p k n : Nat) : (s.count p k n).rings = s.rings := rfl
@[simp] theorem State.count_trace (s : State) (p k n : Nat) : (s.count p k n).trace = s.trace := rfl
@[simp] theorem State.count_stamps (s : State) (p k n : Nat) : (s.count p k n).stamps = s.stamps := rfl
@[simp] theorem State.count_bases (s : State) (p k n : Nat) : (s.count p k n).bases = s.bases := rfl
@[simp] theorem State.count_trd (s : State) (p k n : Nat) : (s.count p k n).trd = s.trd := rfl
@[simp] theorem State.count_evt (s : State) (p k n : Nat) : (s.count p k n).evt = s.evt := rfl
@[simp] theorem State.count_mgr (s : State) (p k n : Nat) : (s.count p k n).mgr = s.mgr := rfl
@[simp] theorem State.count_snap (s : State) (p k n : Nat) : (s.count p k n).snap = s.snap := rfl
@[simp] theorem State.count_strat (s : State) (p k n : Nat) : (s.count p k n).strat = s.strat := rfl
@[simp] theorem State.count_lpd (s : State) (p k n : Nat) : (s.count p k n).lpd = s.lpd := rfl
@[simp] theorem State.count_dies (s : State) (p k n : Nat) : (s.count p k n).dies = s.dies := rfl
@[simp] theorem State.count_mortars (s : State) (p k n : Nat) : (s.count p k n).mortars = s.mortars := rfl
@[simp] theorem State.count_ctlOnQ1 (s : State) (p k n : Nat) : (s.count p k n).ctlOnQ1 = s.ctlOnQ1 := rfl
@[simp] theorem State.count_power (s : State) (p k n : Nat) : (s.count p k n).power = s.power := rfl
@[simp] theorem State.count_sag (s : State) (p k n : Nat) : (s.count p k n).sag = s.sag := rfl
@[simp] theorem State.count_trust (s : State) (p k n : Nat) : (s.count p k n).trust = s.trust := rfl
@[simp] theorem State.count_wear (s : State) (p k n : Nat) : (s.count p k n).wear = s.wear := rfl
@[simp] theorem State.count_maint (s : State) (p k n : Nat) : (s.count p k n).maint = s.maint := rfl
@[simp] theorem State.latchErr_pending (s : State) (p : Nat) (c : W16) (i : W32) : (s.latchErr p c i).pending = s.pending := rfl
@[simp] theorem State.latchErr_free (s : State) (p : Nat) (c : W16) (i : W32) : (s.latchErr p c i).free = s.free := rfl
@[simp] theorem State.latchErr_job (s : State) (p : Nat) (c : W16) (i : W32) : (s.latchErr p c i).job = s.job := rfl
@[simp] theorem State.latchErr_mem (s : State) (p : Nat) (c : W16) (i : W32) : (s.latchErr p c i).mem = s.mem := rfl
@[simp] theorem State.latchErr_bad (s : State) (p : Nat) (c : W16) (i : W32) : (s.latchErr p c i).bad = s.bad := rfl
@[simp] theorem State.latchErr_soft (s : State) (p : Nat) (c : W16) (i : W32) : (s.latchErr p c i).soft = s.soft := rfl
@[simp] theorem State.latchErr_sp (s : State) (p : Nat) (c : W16) (i : W32) : (s.latchErr p c i).sp = s.sp := rfl
@[simp] theorem State.latchErr_sk (s : State) (p : Nat) (c : W16) (i : W32) : (s.latchErr p c i).sk = s.sk := rfl
@[simp] theorem State.latchErr_smp (s : State) (p : Nat) (c : W16) (i : W32) : (s.latchErr p c i).smp = s.smp := rfl
@[simp] theorem State.latchErr_queues (s : State) (p : Nat) (c : W16) (i : W32) : (s.latchErr p c i).queues = s.queues := rfl
@[simp] theorem State.latchErr_engines (s : State) (p : Nat) (c : W16) (i : W32) : (s.latchErr p c i).engines = s.engines := rfl
@[simp] theorem State.latchErr_knots (s : State) (p : Nat) (c : W16) (i : W32) : (s.latchErr p c i).knots = s.knots := rfl
@[simp] theorem State.latchErr_knotWin (s : State) (p : Nat) (c : W16) (i : W32) : (s.latchErr p c i).knotWin = s.knotWin := rfl
@[simp] theorem State.latchErr_waiters (s : State) (p : Nat) (c : W16) (i : W32) : (s.latchErr p c i).waiters = s.waiters := rfl
@[simp] theorem State.latchErr_transit (s : State) (p : Nat) (c : W16) (i : W32) : (s.latchErr p c i).transit = s.transit := rfl
@[simp] theorem State.latchErr_stations (s : State) (p : Nat) (c : W16) (i : W32) : (s.latchErr p c i).stations = s.stations := rfl
@[simp] theorem State.latchErr_gen (s : State) (p : Nat) (c : W16) (i : W32) : (s.latchErr p c i).gen = s.gen := rfl
@[simp] theorem State.latchErr_red (s : State) (p : Nat) (c : W16) (i : W32) : (s.latchErr p c i).red = s.red := rfl
@[simp] theorem State.latchErr_ports (s : State) (p : Nat) (c : W16) (i : W32) : (s.latchErr p c i).ports = s.ports := rfl
@[simp] theorem State.latchErr_mrn (s : State) (p : Nat) (c : W16) (i : W32) : (s.latchErr p c i).mrn = s.mrn := rfl
@[simp] theorem State.latchErr_evtSent (s : State) (p : Nat) (c : W16) (i : W32) : (s.latchErr p c i).evtSent = s.evtSent := rfl
@[simp] theorem State.latchErr_rings (s : State) (p : Nat) (c : W16) (i : W32) : (s.latchErr p c i).rings = s.rings := rfl
@[simp] theorem State.latchErr_trace (s : State) (p : Nat) (c : W16) (i : W32) : (s.latchErr p c i).trace = s.trace := rfl
@[simp] theorem State.latchErr_stamps (s : State) (p : Nat) (c : W16) (i : W32) : (s.latchErr p c i).stamps = s.stamps := rfl
@[simp] theorem State.latchErr_bases (s : State) (p : Nat) (c : W16) (i : W32) : (s.latchErr p c i).bases = s.bases := rfl
@[simp] theorem State.latchErr_trd (s : State) (p : Nat) (c : W16) (i : W32) : (s.latchErr p c i).trd = s.trd := rfl
@[simp] theorem State.latchErr_evt (s : State) (p : Nat) (c : W16) (i : W32) : (s.latchErr p c i).evt = s.evt := rfl
@[simp] theorem State.latchErr_mgr (s : State) (p : Nat) (c : W16) (i : W32) : (s.latchErr p c i).mgr = s.mgr := rfl
@[simp] theorem State.latchErr_snap (s : State) (p : Nat) (c : W16) (i : W32) : (s.latchErr p c i).snap = s.snap := rfl
@[simp] theorem State.latchErr_strat (s : State) (p : Nat) (c : W16) (i : W32) : (s.latchErr p c i).strat = s.strat := rfl
@[simp] theorem State.latchErr_lpd (s : State) (p : Nat) (c : W16) (i : W32) : (s.latchErr p c i).lpd = s.lpd := rfl
@[simp] theorem State.latchErr_dies (s : State) (p : Nat) (c : W16) (i : W32) : (s.latchErr p c i).dies = s.dies := rfl
@[simp] theorem State.latchErr_mortars (s : State) (p : Nat) (c : W16) (i : W32) : (s.latchErr p c i).mortars = s.mortars := rfl
@[simp] theorem State.latchErr_ctlOnQ1 (s : State) (p : Nat) (c : W16) (i : W32) : (s.latchErr p c i).ctlOnQ1 = s.ctlOnQ1 := rfl
@[simp] theorem State.latchErr_power (s : State) (p : Nat) (c : W16) (i : W32) : (s.latchErr p c i).power = s.power := rfl
@[simp] theorem State.latchErr_sag (s : State) (p : Nat) (c : W16) (i : W32) : (s.latchErr p c i).sag = s.sag := rfl
@[simp] theorem State.latchErr_trust (s : State) (p : Nat) (c : W16) (i : W32) : (s.latchErr p c i).trust = s.trust := rfl
@[simp] theorem State.latchErr_wear (s : State) (p : Nat) (c : W16) (i : W32) : (s.latchErr p c i).wear = s.wear := rfl
@[simp] theorem State.latchErr_maint (s : State) (p : Nat) (c : W16) (i : W32) : (s.latchErr p c i).maint = s.maint := rfl


end Sys2Proof.Machine
end

