-- ==== Sys2Proof/Laws/Table.lean ====
section
/-!
SUPPORT. Laws of sparse tables: reading what was written, reading elsewhere, and the canonical form that every operation keeps.
-/
namespace Sys2Proof.Machine

variable {α : Type}

@[simp] theorem Tbl.get_nil (d : α) (k : Nat) : Tbl.get ([] : Tbl α) d k = d := rfl

@[simp] theorem Tbl.get_put_self (t : Tbl α) (d : α) (k : Nat) (v : α) : (t.put k v).get d k = v := by
  induction t with
  | nil => simp [Tbl.put, Tbl.get]
  | cons e rest ih =>
    obtain ⟨j, w⟩ := e
    simp only [Tbl.put]
    split
    · simp [Tbl.get]
    · rename_i hj
      simp only [beq_iff_eq] at hj
      split
      · simp [Tbl.get]
      · simp only [Tbl.get, beq_iff_eq]
        repeat' split
        all_goals first | exact ih | omega

theorem Tbl.get_put_ne (t : Tbl α) (d : α) {k j : Nat} (v : α) (h : j ≠ k) : (t.put k v).get d j = t.get d j := by
  induction t with
  | nil => simp [Tbl.put, Tbl.get]; omega
  | cons e rest ih =>
    obtain ⟨i, w⟩ := e
    simp only [Tbl.put]
    split
    · rename_i hi
      simp only [beq_iff_eq] at hi
      subst hi
      simp [Tbl.get, Ne.symm h]
    · split
      · simp only [Tbl.get, beq_iff_eq]
        repeat' split
        all_goals first | rfl | omega
      · simp_all [Tbl.get]

theorem Tbl.get_eq_of_above {t : Tbl α} {k j : Nat} (d : α) (h : Tbl.above k t = true) (hj : j ≤ k) : t.get d j = d := by
  cases t with
  | nil => rfl
  | cons e rest =>
    obtain ⟨i, w⟩ := e
    simp only [Tbl.above, decide_eq_true_eq] at h
    simp only [Tbl.get, beq_iff_eq]
    repeat' split
    all_goals first | rfl | omega

section canonical
variable [DecidableEq α] {d : α}

theorem Tbl.wf_cons {j : Nat} {v : α} {rest : Tbl α} :
    Tbl.wf d ((j, v) :: rest) = true ↔ v ≠ d ∧ Tbl.above j rest = true ∧ Tbl.wf d rest = true := by
  simp [Tbl.wf, and_assoc]

theorem Tbl.wf_tail {e : Nat × α} {rest : Tbl α} (h : Tbl.wf d (e :: rest) = true) : Tbl.wf d rest = true := by
  obtain ⟨j, v⟩ := e
  exact (Tbl.wf_cons.1 h).2.2

omit [DecidableEq α] in
theorem Tbl.above_trans {j k : Nat} {t : Tbl α} (h : Tbl.above j t = true) (hk : k ≤ j) : Tbl.above k t = true := by
  cases t with
  | nil => rfl
  | cons e rest => obtain ⟨i, w⟩ := e; simp only [Tbl.above, decide_eq_true_eq] at *; omega

omit [DecidableEq α] in
theorem Tbl.above_put {j k : Nat} {v : α} {t : Tbl α} (h : Tbl.above j t = true) (hk : j < k) :
    Tbl.above j (t.put k v) = true := by
  cases t with
  | nil => simpa [Tbl.put, Tbl.above] using hk
  | cons e rest =>
    obtain ⟨i, w⟩ := e
    simp only [Tbl.above, decide_eq_true_eq] at h
    simp only [Tbl.put]
    repeat' split
    all_goals simp [Tbl.above]; omega

theorem Tbl.wf_put {t : Tbl α} {k : Nat} {v : α} (h : Tbl.wf d t = true) (hv : v ≠ d) : Tbl.wf d (t.put k v) = true := by
  induction t with
  | nil => simp [Tbl.put, Tbl.wf, Tbl.above, hv]
  | cons e rest ih =>
    obtain ⟨i, w⟩ := e
    obtain ⟨h1, h2, h3⟩ := Tbl.wf_cons.1 h
    simp only [Tbl.put]
    split
    · rename_i hi
      simp only [beq_iff_eq] at hi
      subst hi
      exact Tbl.wf_cons.2 ⟨hv, h2, h3⟩
    · rename_i hi
      simp only [beq_iff_eq] at hi
      split
      · rename_i hk
        exact Tbl.wf_cons.2 ⟨hv, by simpa [Tbl.above] using hk, h⟩
      · exact Tbl.wf_cons.2 ⟨h1, Tbl.above_put h2 (by omega), ih h3⟩

theorem Tbl.above_del {j k : Nat} {t : Tbl α} (h : Tbl.wf d t = true) (ha : Tbl.above j t = true) :
    Tbl.above j (t.del k) = true := by
  cases t with
  | nil => rfl
  | cons e rest =>
    obtain ⟨i, w⟩ := e
    obtain ⟨_, h2, _⟩ := Tbl.wf_cons.1 h
    simp only [Tbl.above, decide_eq_true_eq] at ha
    simp only [Tbl.del]
    split
    · exact Tbl.above_trans h2 (by omega)
    · split <;> simpa [Tbl.above] using ha

theorem Tbl.wf_del {t : Tbl α} {k : Nat} (h : Tbl.wf d t = true) : Tbl.wf d (t.del k) = true := by
  induction t with
  | nil => rfl
  | cons e rest ih =>
    obtain ⟨i, w⟩ := e
    obtain ⟨h1, h2, h3⟩ := Tbl.wf_cons.1 h
    simp only [Tbl.del]
    split
    · exact h3
    · split
      · exact h
      · exact Tbl.wf_cons.2 ⟨h1, Tbl.above_del h3 h2, ih h3⟩

/-- A write keeps the canonical form. -/
theorem Tbl.wf_set {t : Tbl α} {k : Nat} {v : α} (h : Tbl.wf d t = true) : Tbl.wf d (t.set d k v) = true := by
  unfold Tbl.set
  split
  · exact Tbl.wf_del h
  · exact Tbl.wf_put h ‹_›

theorem Tbl.get_del_self {t : Tbl α} {k : Nat} (h : Tbl.wf d t = true) : (t.del k).get d k = d := by
  induction t with
  | nil => rfl
  | cons e rest ih =>
    obtain ⟨i, w⟩ := e
    obtain ⟨_, h2, h3⟩ := Tbl.wf_cons.1 h
    simp only [Tbl.del]
    split
    · rename_i hi
      simp only [beq_iff_eq] at hi
      subst hi
      exact Tbl.get_eq_of_above d h2 (Nat.le_refl _)
    · split
      · simp_all [Tbl.get]
      · simp_all [Tbl.get]

theorem Tbl.get_del_ne {t : Tbl α} {k j : Nat} (h : Tbl.wf d t = true) (hj : j ≠ k) : (t.del k).get d j = t.get d j := by
  induction t with
  | nil => rfl
  | cons e rest ih =>
    obtain ⟨i, w⟩ := e
    obtain ⟨_, h2, h3⟩ := Tbl.wf_cons.1 h
    simp only [Tbl.del]
    split
    · rename_i hi
      simp only [beq_iff_eq] at hi
      subst hi
      simp only [Tbl.get, beq_iff_eq]
      split
      · omega
      · split
        · exact Tbl.get_eq_of_above d h2 (by omega)
        · rfl
    · split
      · rfl
      · simp_all [Tbl.get]

/-- Reading back what was written, in a table of canonical form. -/
theorem Tbl.get_set_self {t : Tbl α} {k : Nat} {v : α} (h : Tbl.wf d t = true) : (t.set d k v).get d k = v := by
  unfold Tbl.set
  split
  · rename_i hv; rw [Tbl.get_del_self h, hv]
  · exact Tbl.get_put_self t d k v

/-- A write leaves every other key alone. -/
theorem Tbl.get_set_ne {t : Tbl α} {k j : Nat} {v : α} (h : Tbl.wf d t = true) (hj : j ≠ k) :
    (t.set d k v).get d j = t.get d j := by
  unfold Tbl.set
  split
  · exact Tbl.get_del_ne h hj
  · exact Tbl.get_put_ne t d v hj

/-- Writing a value that differs from the default needs no canonical form. -/
theorem Tbl.set_of_ne {t : Tbl α} {k : Nat} {v : α} (hv : v ≠ d) : t.set d k v = t.put k v := by simp [Tbl.set, hv]

theorem Tbl.above_filter {j : Nat} {t : Tbl α} (p : Nat × α → Bool) (h : Tbl.wf d t = true) (ha : Tbl.above j t = true) :
    Tbl.above j (t.filter p) = true := by
  induction t with
  | nil => rfl
  | cons e rest ih =>
    obtain ⟨i, w⟩ := e
    obtain ⟨_, h2, h3⟩ := Tbl.wf_cons.1 h
    simp only [Tbl.above, decide_eq_true_eq] at ha
    simp only [List.filter]
    split
    · simpa [Tbl.above] using ha
    · exact ih h3 (Tbl.above_trans h2 (by omega))

/-- Dropping entries keeps the canonical form. -/
theorem Tbl.wf_filter {t : Tbl α} (p : Nat × α → Bool) (h : Tbl.wf d t = true) : Tbl.wf d (t.filter p) = true := by
  induction t with
  | nil => rfl
  | cons e rest ih =>
    obtain ⟨i, w⟩ := e
    obtain ⟨h1, h2, h3⟩ := Tbl.wf_cons.1 h
    simp only [List.filter]
    split
    · exact Tbl.wf_cons.2 ⟨h1, Tbl.above_filter p h3 h2, ih h3⟩
    · exact ih h3

theorem Tbl.above_ofRun {j a : Nat} (vs : List α) (h : j < a) : Tbl.above j (Tbl.ofRun d a vs) = true := by
  induction vs generalizing a with
  | nil => rfl
  | cons v vs ih =>
    simp only [Tbl.ofRun]
    split
    · exact ih (by omega)
    · simpa [Tbl.above] using h

theorem Tbl.wf_ofRun (a : Nat) (vs : List α) : Tbl.wf d (Tbl.ofRun d a vs) = true := by
  induction vs generalizing a with
  | nil => rfl
  | cons v vs ih =>
    simp only [Tbl.ofRun]
    split
    · exact ih _
    · exact Tbl.wf_cons.2 ⟨‹_›, Tbl.above_ofRun vs (by omega), ih _⟩

/-- Every key of a table lies below `k`. -/
def Tbl.below (k : Nat) (t : Tbl α) : Prop := ∀ e ∈ t, e.1 < k

omit [DecidableEq α] in
theorem Tbl.above_append {j : Nat} {t u : Tbl α} (ht : Tbl.above j t = true) (hu : Tbl.above j u = true) :
    Tbl.above j (t ++ u) = true := by
  cases t with
  | nil => simpa using hu
  | cons e rest => obtain ⟨i, w⟩ := e; simpa [Tbl.above] using ht

/-- Two tables one after the other, where the first ends before the second begins. -/
theorem Tbl.wf_append {k : Nat} {t u : Tbl α} (ht : Tbl.wf d t = true) (hu : Tbl.wf d u = true) (hb : t.below k)
    (ha : ∀ e ∈ u, k ≤ e.1) : Tbl.wf d (t ++ u) = true := by
  induction t with
  | nil => simpa using hu
  | cons e rest ih =>
    obtain ⟨i, w⟩ := e
    obtain ⟨h1, h2, h3⟩ := Tbl.wf_cons.1 ht
    have hi : i < k := hb (i, w) (by simp)
    refine Tbl.wf_cons.2 ⟨h1, Tbl.above_append h2 ?_, ih h3 fun e he => hb e (by simp [he])⟩
    cases u with
    | nil => rfl
    | cons f us =>
      obtain ⟨j, y⟩ := f
      have := ha (j, y) (by simp)
      simp only [Tbl.above, decide_eq_true_eq]
      omega

theorem Tbl.ofRun_keys {a : Nat} {vs : List α} {e : Nat × α} (he : e ∈ Tbl.ofRun d a vs) : a ≤ e.1 ∧ e.1 < a + vs.length := by
  induction vs generalizing a with
  | nil => simp [Tbl.ofRun] at he
  | cons v vs ih =>
    simp only [Tbl.ofRun] at he
    split at he
    · have := ih he; simp only [List.length_cons]; omega
    · simp only [List.mem_cons] at he
      rcases he with rfl | he
      · simp
      · have := ih he; simp only [List.length_cons]; omega

/-- Writing a run of values keeps the canonical form. -/
theorem Tbl.wf_setRun {t : Tbl α} (a : Nat) (vs : List α) (h : Tbl.wf d t = true) : Tbl.wf d (t.setRun d a vs) = true := by
  unfold Tbl.setRun
  refine Tbl.wf_append (k := a + vs.length) (Tbl.wf_append (k := a) (Tbl.wf_filter _ h) (Tbl.wf_ofRun a vs) ?_ ?_)
    (Tbl.wf_filter _ h) ?_ ?_
  · intro e he; simpa using (List.mem_filter.1 he).2
  · intro e he; exact (Tbl.ofRun_keys he).1
  · intro e he
    rcases List.mem_append.1 he with he | he
    · have := (List.mem_filter.1 he).2; simp at this; omega
    · exact (Tbl.ofRun_keys he).2
  · intro e he; simpa using (List.mem_filter.1 he).2

end canonical

/-! ### Reading a table through `find` -/

@[simp] theorem Tbl.find_put_self (t : Tbl α) (k : Nat) (v : α) : (t.put k v).find k = some v := by
  induction t with
  | nil => simp [Tbl.put, Tbl.find]
  | cons e rest ih =>
    obtain ⟨j, w⟩ := e
    simp only [Tbl.put]
    split
    · simp [Tbl.find]
    · split
      · simp [Tbl.find]
      · simp_all [Tbl.find]

theorem Tbl.find_put_ne (t : Tbl α) {k j : Nat} (v : α) (h : j ≠ k) : (t.put k v).find j = t.find j := by
  induction t with
  | nil => simp [Tbl.put, Tbl.find]; omega
  | cons e rest ih =>
    obtain ⟨i, w⟩ := e
    simp only [Tbl.put]
    split
    · rename_i hi
      simp only [beq_iff_eq] at hi
      subst hi
      simp [Tbl.find, Ne.symm h]
    · split
      · simp only [Tbl.find, beq_iff_eq]
        repeat' split
        all_goals first | rfl | omega
      · simp_all [Tbl.find]

end Sys2Proof.Machine
end

