-- ==== Sys2Proof/Laws/Memory.lean ====
section
/-!
SUPPORT. Laws of the memory: every memory operation keeps the canonical form, and reading a byte after a write.
-/
namespace Sys2Proof.Machine

theorem State.memOk_poke {s : State} (a : Nat) (bs : Bytes) (h : s.memOk = true) : (s.poke a bs).memOk = true :=
  Tbl.wf_setRun a bs h

theorem State.memOk_clearMem {s : State} (a n : Nat) (h : s.memOk = true) : (s.clearMem a n).memOk = true :=
  Tbl.wf_filter _ h

theorem State.memOk_store {s : State} (a : Nat) (bs : Bytes) (sp : Option Nat) (h : s.memOk = true) :
    (s.store a bs sp).memOk = true := by
  simp only [State.store]
  split
  · exact State.memOk_poke (s := s.noteRows _) a bs h
  · exact h

/-- A named operation that leaves memory as it is keeps the canonical form. -/
theorem State.memOk_of_eq {s t : State} (e : t.mem = s.mem) (h : s.memOk = true) : t.memOk = true := by
  simpa [State.memOk, e] using h

theorem State.reset_memOk : State.reset.memOk = true := rfl

/-! ### What a write marks on the sampling requests (R271) -/

theorem State.requestsKept_refl (s : State) : s.requestsKept s := rfl

theorem State.requestsKept_trans {s t u : State} (h : s.requestsKept t) (k : t.requestsKept u) : s.requestsKept u := Eq.trans k h

theorem Sampler.unmarked_note (hit : SampleReq → List Nat) (u : Sampler) :
    Sampler.unmarked { u with queue := u.queue.map fun q => q.note (hit q), ending := u.ending.map fun q => q.note (hit q) } = u.unmarked := by
  cases h : u.ending <;> simp [Sampler.unmarked, SampleReq.unmarked, SampleReq.note, Function.comp_def, h]

theorem State.requestsKept_noteRows (s : State) (hit : SampleReq → List Nat) : s.requestsKept (s.noteRows hit) := by
  simp [State.requestsKept, State.noteRows, Tbl.mapV, Sampler.unmarked_note, Function.comp_def]

theorem State.requestsKept_localPut (s : State) (n a : Nat) (bs : Bytes) : s.requestsKept (s.localPut n a bs) :=
  State.requestsKept_noteRows ..

theorem State.requestsKept_store (s : State) (a : Nat) (bs : Bytes) (n : Option Nat) : s.requestsKept (s.store a bs n) := by
  unfold State.store
  dsimp only
  split <;> exact State.requestsKept_noteRows ..

/-! ### Reads behind the writes that wait (R356, R376) -/

/-- With no write waiting and no page of the range being cleared, what a read will deliver is what lies in memory now. -/
theorem State.loadNew_eq_load {s : State} (a n : Nat) (hw : s.snap.waits = []) (hc : (pagesOf a n).any s.clearsPage = false) :
    s.loadNew a n = s.load a n := by
  simp [State.loadNew, hw, hc]

/-! ### Bytes -/

/-- The byte at an address. -/
def State.byte (s : State) (a : Nat) : Byte := s.mem.get 0 a

/-- Keys of a table of canonical form that lie below `k`: reading a filtered table there. -/
theorem Tbl.get_filter_pos {α : Type} [DecidableEq α] {d : α} {t : Tbl α} {p : Nat × α → Bool} {k : Nat}
    (h : Tbl.wf d t = true) (hp : ∀ v, p (k, v) = true) : (Tbl.get (t.filter p) d k) = t.get d k := by
  induction t with
  | nil => rfl
  | cons e rest ih =>
    obtain ⟨i, w⟩ := e
    obtain ⟨_, h2, h3⟩ := Tbl.wf_cons.1 h
    by_cases hik : i = k
    · subst hik
      simp [List.filter, hp, Tbl.get]
    · simp only [List.filter]
      split
      · simp only [Tbl.get, beq_iff_eq, hik, if_false]
        split
        · rfl
        · exact ih h3
      · rw [ih h3]
        simp only [Tbl.get, beq_iff_eq, hik, if_false]
        split
        · exact Tbl.get_eq_of_above d h2 (by omega)
        · rfl

theorem Tbl.get_filter_neg {α : Type} {d : α} {t : Tbl α} {p : Nat × α → Bool} {k : Nat}
    (hp : ∀ v, p (k, v) = false) : (Tbl.get (t.filter p) d k) = d := by
  induction t with
  | nil => rfl
  | cons e rest ih =>
    obtain ⟨i, w⟩ := e
    simp only [List.filter]
    split
    · rename_i hiw
      have hik : i ≠ k := by
        intro hc
        subst hc
        simp [hp] at hiw
      simp only [Tbl.get, beq_iff_eq, hik, if_false]
      split
      · rfl
      · exact ih
    · exact ih

/-- A cleared range reads zero; every other address reads as before (R375). -/
theorem State.byte_clearMem {s : State} (a n b : Nat) (h : s.memOk = true) :
    (s.clearMem a n).byte b = if a ≤ b ∧ b < a + n then 0 else s.byte b := by
  show Tbl.get (List.filter _ s.mem) 0 b = _
  split
  · rename_i hb
    apply Tbl.get_filter_neg
    intro v
    simp
    omega
  · rename_i hb
    apply Tbl.get_filter_pos h
    intro v
    simp
    omega

theorem Tbl.get_append {α : Type} {d : α} {k : Nat} {t u : Tbl α} (b : Nat) (ht : ∀ e ∈ t, e.1 < b) (hk : b ≤ k) :
    Tbl.get (t ++ u) d k = u.get d k := by
  induction t with
  | nil => rfl
  | cons e rest ih =>
    obtain ⟨i, w⟩ := e
    have hi : i < b := ht (i, w) (by simp)
    have : i ≠ k := by omega
    simp only [List.cons_append, Tbl.get, beq_iff_eq, this, if_false]
    split
    · omega
    · exact ih fun e he => ht e (by simp [he])

theorem Tbl.get_append_left {α : Type} [DecidableEq α] {d : α} {k : Nat} {t u : Tbl α} (hu : ∀ e ∈ u, k < e.1) :
    Tbl.get (t ++ u) d k = t.get d k := by
  induction t with
  | nil =>
    cases u with
    | nil => rfl
    | cons e rest =>
      obtain ⟨i, w⟩ := e
      have : k < i := hu (i, w) (by simp)
      have : i ≠ k := by omega
      simp only [List.nil_append, Tbl.get, beq_iff_eq, this, if_false]
      split
      · rfl
      · omega
  | cons e rest ih =>
    obtain ⟨i, w⟩ := e
    simp only [List.cons_append, Tbl.get, ih]

theorem Tbl.get_ofRun {α : Type} [DecidableEq α] {d : α} (a k : Nat) (vs : List α) :
    (Tbl.ofRun d a vs).get d k = if a ≤ k ∧ k < a + vs.length then vs.getD (k - a) d else d := by
  induction vs generalizing a with
  | nil => simp [Tbl.ofRun]
  | cons v vs ih =>
    simp only [Tbl.ofRun]
    split
    · rename_i hv
      rw [ih]
      by_cases hk : k = a
      · subst hk
        rw [if_neg (by omega), if_pos (by simp)]
        simp [hv]
      · by_cases hin : a + 1 ≤ k ∧ k < a + 1 + vs.length
        · rw [if_pos hin, if_pos (by simp only [List.length_cons]; omega)]
          obtain ⟨m, rfl⟩ : ∃ m, k = a + 1 + m := ⟨k - (a + 1), by omega⟩
          rw [show a + 1 + m - (a + 1) = m by omega, show a + 1 + m - a = m + 1 by omega]
          simp
        · rw [if_neg hin, if_neg (by simp only [List.length_cons]; omega)]
    · by_cases hk : k = a
      · subst hk
        simp [Tbl.get]
      · simp only [Tbl.get, beq_iff_eq, Ne.symm hk, if_false]
        by_cases hlt : k < a
        · rw [if_pos hlt, if_neg (by omega)]
        · rw [if_neg hlt, ih]
          by_cases hin : a + 1 ≤ k ∧ k < a + 1 + vs.length
          · rw [if_pos hin, if_pos (by simp only [List.length_cons]; omega)]
            obtain ⟨m, rfl⟩ : ∃ m, k = a + 1 + m := ⟨k - (a + 1), by omega⟩
            rw [show a + 1 + m - (a + 1) = m by omega, show a + 1 + m - a = m + 1 by omega]
            simp
          · rw [if_neg hin, if_neg (by simp only [List.length_cons]; omega)]

theorem Tbl.get_setRun {α : Type} [DecidableEq α] {d : α} {t : Tbl α} (a k : Nat) (vs : List α) (h : Tbl.wf d t = true) :
    (t.setRun d a vs).get d k = if a ≤ k ∧ k < a + vs.length then vs.getD (k - a) d else t.get d k := by
  unfold Tbl.setRun
  by_cases hlo : k < a
  · rw [if_neg (by omega), List.append_assoc, Tbl.get_append_left]
    · exact Tbl.get_filter_pos h (by intro v; simpa using hlo)
    · intro e he
      rcases List.mem_append.1 he with he | he
      · have := (Tbl.ofRun_keys he).1; omega
      · have := (List.mem_filter.1 he).2; simp at this; omega
  · by_cases hhi : k < a + vs.length
    · rw [if_pos ⟨by omega, hhi⟩, List.append_assoc, Tbl.get_append a _ (by omega), Tbl.get_append_left, Tbl.get_ofRun,
        if_pos ⟨by omega, hhi⟩]
      · intro e he
        have := (List.mem_filter.1 he).2
        simp at this
        omega
      · intro e he
        have := (List.mem_filter.1 he).2
        simpa using this
    · rw [if_neg (by omega), Tbl.get_append (a + vs.length) _ (by omega)]
      · exact Tbl.get_filter_pos h (by intro v; simp; omega)
      · intro e he
        rcases List.mem_append.1 he with he | he
        · have := (List.mem_filter.1 he).2; simp at this; omega
        · exact (Tbl.ofRun_keys he).2

/-- A byte after a write: the byte written inside the range, and what was there before outside it. -/
theorem State.byte_poke {s : State} (a b : Nat) (bs : Bytes) (h : s.memOk = true) :
    (s.poke a bs).byte b = if a ≤ b ∧ b < a + bs.length then bs.getD (b - a) 0 else s.byte b :=
  Tbl.get_setRun a b bs h

/-! ### Runs of bytes -/

/-- Every key of a table in canonical form lies above what its first one lies above. -/
theorem Tbl.above_mem {α : Type} [DecidableEq α] {d : α} {j : Nat} {t : Tbl α} (h : Tbl.wf d t = true) (ha : Tbl.above j t = true) :
    ∀ e ∈ t, j < e.1 := by
  induction t generalizing j with
  | nil => simp
  | cons e rest ih =>
    obtain ⟨i, w⟩ := e
    have hw := Tbl.wf_cons.1 h
    have hi : j < i := by simpa [Tbl.above] using ha
    intro e he
    rcases List.mem_cons.1 he with rfl | he
    · exact hi
    · have := ih hw.2.2 hw.2.1 e he; omega

/-- A slice read off in one pass gives the values key by key. -/
theorem Tbl.expand_eq {α : Type} [DecidableEq α] {d : α} (n : Nat) {a : Nat} {t : Tbl α} (h : Tbl.wf d t = true)
    (ha : ∀ e ∈ t, a ≤ e.1) : Tbl.expand d n a t = (List.range n).map fun i => t.get d (a + i) := by
  induction n generalizing a t with
  | zero => rfl
  | succ n ih =>
    rw [List.range_succ_eq_map]
    cases t with
    | nil =>
      simp only [Tbl.expand, List.map_cons, List.map_map]
      rw [ih rfl (by simp)]
      rfl
    | cons e rest =>
      obtain ⟨j, v⟩ := e
      have hw := Tbl.wf_cons.1 h
      have hj : a ≤ j := ha (j, v) (by simp)
      have hr : ∀ e ∈ rest, j < e.1 := fun e he => Tbl.above_mem hw.2.2 hw.2.1 e he
      simp only [Tbl.expand]
      by_cases hja : j = a
      · subst hja
        have hr' : ∀ e ∈ rest, j + 1 ≤ e.1 := fun e he => hr e he
        simp only [beq_self_eq_true, if_true, List.map_cons, List.map_map]
        rw [ih hw.2.2 hr']
        congr 1
        · simp [Tbl.get]
        · apply List.map_congr_left
          intro i _
          have h2 : (j == j + (i + 1)) = false := by simp
          have h3 : ¬ j + (i + 1) < j := by omega
          simp only [Function.comp, Nat.succ_eq_add_one, Tbl.get, h2, Bool.false_eq_true, if_false, h3]
          rw [Nat.add_right_comm, Nat.add_assoc]
      · have h1 : (j == a) = false := by simpa using hja
        have hs : ∀ e ∈ ((j, v) :: rest : Tbl α), a + 1 ≤ e.1 := by
          intro e he
          rcases List.mem_cons.1 he with rfl | he
          · simp; omega
          · have := hr e he; omega
        simp only [h1, Bool.false_eq_true, if_false, List.map_cons, List.map_map]
        rw [ih h hs]
        congr 1
        · simp [Tbl.get, hja, show a < j by omega]
        · apply List.map_congr_left
          intro i _
          simp only [Function.comp, Nat.succ_eq_add_one]
          rw [Nat.add_right_comm, Nat.add_assoc]

/-- A run of a table reads each of its keys. -/
theorem Tbl.range_eq {α : Type} [DecidableEq α] {d : α} {t : Tbl α} (a n : Nat) (h : Tbl.wf d t = true) :
    t.range d a n = (List.range n).map fun i => t.get d (a + i) := by
  unfold Tbl.range Tbl.slice
  rw [Tbl.expand_eq n (Tbl.wf_filter _ h)]
  · apply List.map_congr_left
    intro i hi
    have hi : i < n := List.mem_range.1 hi
    exact Tbl.get_filter_pos h (by intro v; simp; omega)
  · intro e he
    have := (List.mem_filter.1 he).2
    simp at this
    omega

/-- Loading reads each byte. -/
theorem State.load_eq {s : State} (a n : Nat) (h : s.memOk = true) : s.load a n = (List.range n).map fun i => s.byte (a + i) :=
  Tbl.range_eq a n h

end Sys2Proof.Machine
end

