-- ==== Sys2Proof/Laws/Issue.lean ====
section
/-!
SUPPORT. What issuing, retiring and waiting do to a state, said once.
-/
namespace Sys2Proof.Machine

/-- A spindle that runs is listed, whatever the rest of it holds. -/
theorem Spindle.ne_reset_of_run {x : Spindle} (h : x.run ≠ .idle) : x ≠ Spindle.reset := by
  rintro rfl
  exact h rfl

theorem State.spindle_setSpindle_self {s : State} {n : Nat} {x : Spindle} (h : x ≠ Spindle.reset) :
    (s.setSpindle n x).spindle n = x := by
  simp [State.spindle, State.setSpindle, Tbl.set_of_ne h]

theorem State.spindle_setSpindle_ne {s : State} {n m : Nat} {x : Spindle} (h : x ≠ Spindle.reset) (hm : m ≠ n) :
    (s.setSpindle n x).spindle m = s.spindle m := by
  simp [State.spindle, State.setSpindle, Tbl.set_of_ne h, Tbl.get_put_ne _ _ _ hm]

theorem State.page_setPage_self {s : State} {p : Nat} {x : PageHdr} (h : x ≠ PageHdr.reset) : (s.setPage p x).page p = x := by
  simp [State.page, State.setPage, Tbl.set_of_ne h]

theorem State.page_setPage_ne {s : State} {p q : Nat} {x : PageHdr} (h : x ≠ PageHdr.reset) (hq : q ≠ p) :
    (s.setPage p x).page q = s.page q := by
  simp [State.page, State.setPage, Tbl.set_of_ne h, Tbl.get_put_ne _ _ _ hq]

@[simp] theorem State.spindle_setPage (s : State) (p n : Nat) (x : PageHdr) : (s.setPage p x).spindle n = s.spindle n := rfl
@[simp] theorem State.page_setSpindle (s : State) (p n : Nat) (x : Spindle) : (s.setSpindle n x).page p = s.page p := rfl
@[simp] theorem State.spindle_count (s : State) (p k c n : Nat) : (s.count p k c).spindle n = s.spindle n := rfl

/-- The largest value of a counter is not zero. -/
theorem ctrWidth_pos (p k : Nat) : 0 < 2 ^ ctrWidth p k - 1 := by
  have h : 1 ≤ ctrWidth p k := by
    simp only [ctrWidth]
    repeat' split
    all_goals omega
  have := Nat.pow_le_pow_right (n := 2) (by omega) h
  omega

theorem count_ne_reset (s : State) (p k : Nat) {c : Nat} (hc : 0 < c) :
    { s.page p with ctr := (s.page p).ctr.set 0 k (satAdd (2 ^ ctrWidth p k - 1) ((s.page p).counter k) c) } ≠ PageHdr.reset := by
  intro h
  have h1 := congrArg (fun x : PageHdr => x.ctr.get 0 k) h
  have hv : satAdd (2 ^ ctrWidth p k - 1) ((s.page p).counter k) c ≠ 0 := by
    have := ctrWidth_pos p k
    unfold satAdd
    omega
  rw [Tbl.set_of_ne hv] at h1
  simp only [Tbl.get_put_self] at h1
  exact hv h1

/-- A counter after it counts, saturating (R633); every other page is as before. -/
theorem State.page_count_self (s : State) (p k : Nat) {c : Nat} (hc : 0 < c) :
    (s.count p k c).page p =
      { s.page p with ctr := (s.page p).ctr.set 0 k (satAdd (2 ^ ctrWidth p k - 1) ((s.page p).counter k) c) } :=
  State.page_setPage_self (count_ne_reset s p k hc)

theorem State.page_count_ne (s : State) {p q : Nat} (k : Nat) {c : Nat} (hc : 0 < c) (hq : q ≠ p) :
    (s.count p k c).page q = s.page q :=
  State.page_setPage_ne (count_ne_reset s p k hc) hq

/-- Retirement to `pc`: the spindle runs on there, its page counts one instruction, and nothing else changes. -/
theorem State.retireTo_spec (s : State) (n pc : Nat) :
    (s.retireTo n pc).spindle n = { s.spindle n with pc := pc % 2 ^ 32, run := .run, wait := .none }
      ∧ (∀ m, m ≠ n → (s.retireTo n pc).spindle m = s.spindle m)
      ∧ (s.retireTo n pc).page (pgSPD n) =
          (let h := s.page (pgSPD n)
           { h with ctr := h.ctr.set 0 0 (satAdd (2 ^ ctrWidth (pgSPD n) 0 - 1) (h.counter 0) 1) })
      ∧ (∀ p, p ≠ pgSPD n → (s.retireTo n pc).page p = s.page p)
      ∧ s.retireTo n pc = { s with sp := (s.retireTo n pc).sp, pages := (s.retireTo n pc).pages } := by
  have hx : ({ s.spindle n with pc := pc % 2 ^ 32, run := .run, wait := .none } : Spindle) ≠ Spindle.reset :=
    Spindle.ne_reset_of_run (by simp)
  refine ⟨?_, ?_, ?_, ?_, rfl⟩
  · simp only [State.retireTo, State.spindle_count]
    exact State.spindle_setSpindle_self hx
  · intro m hm
    simp only [State.retireTo, State.spindle_count]
    exact State.spindle_setSpindle_ne hx hm
  · simp only [State.retireTo]
    rw [State.page_count_self _ _ _ (by omega)]
    rfl
  · intro p hp
    simp only [State.retireTo]
    rw [State.page_count_ne _ _ (by omega) hp]
    rfl

/-- An instruction that its row accepts runs (R280, R288). -/
theorem State.issue_of {s : State} {n : Nat} {w : W64} {i : SpInstr} {f : SpInstr → Option (State → State)}
    {g : State → State} (hm : s.mayIssue n = true) (hw : s.fetch n = .ok w) (hi : decodeSp w = some i) (hf : f i = some g) :
    s.issue n f = g s := by
  simp [State.issue, hm, hw, hi, hf]

/-- A fetch that fails stops the station with its code (R280). -/
theorem State.issue_badFetch {s : State} {n : Nat} {c : W16} (f : SpInstr → Option (State → State))
    (hm : s.mayIssue n = true) (hw : s.fetch n = .error c) : s.issue n f = s.stopSp n c := by
  simp [State.issue, hm, hw]

/-- An invalid word stops the station (R288). -/
theorem State.issue_invalid {s : State} {n : Nat} {w : W64} (f : SpInstr → Option (State → State))
    (hm : s.mayIssue n = true) (hw : s.fetch n = .ok w) (hi : decodeSp w = none) : s.issue n f = s.stopSp n 0x020F := by
  simp [State.issue, hm, hw, hi]

theorem State.issue_quiet {s : State} {n : Nat} (f : SpInstr → Option (State → State)) (hm : s.mayIssue n = false) :
    s.issue n f = s := by
  simp [State.issue, hm]

end Sys2Proof.Machine
end

