-- ==== Sys2Proof/Laws/Keccak.lean ====
section
/-!
SUPPORT. Lengths of what the sponge gives: 25 lanes, 136 bytes a block, and a tag of 16 bytes.
-/
namespace Sys2Proof.Machine

@[simp] theorem keccakRound_length (a : List W64) (rc : W64) : (keccakRound a rc).length = 25 := by simp [keccakRound]

theorem foldl_keccakRound_length (l : List W64) (a : List W64) (h : a.length = 25) : (l.foldl keccakRound a).length = 25 := by
  induction l generalizing a with
  | nil => exact h
  | cons rc l ih => exact ih _ (keccakRound_length a rc)

theorem keccakF_length {a : List W64} (h : a.length = 25) : (keccakF a).length = 25 := foldl_keccakRound_length _ _ h

theorem absorb_length {n : Nat} {a : List W64} {bs : Bytes} (h : a.length = 25) : (absorb n a bs).length = 25 := by
  induction n generalizing a bs with
  | zero => exact h
  | succ n ih => exact ih (keccakF_length (by simp))

theorem flatMap_leBytes_length (l : List W64) : (l.flatMap fun w => leBytes 8 w.toNat).length = 8 * l.length := by
  induction l with
  | nil => rfl
  | cons w l ih => simp only [List.flatMap_cons, List.length_append, leBytes_length, ih, List.length_cons]; omega

theorem squeeze_length {n : Nat} {a : List W64} (h : a.length = 25) : (squeeze n a).length = 136 * n := by
  induction n generalizing a with
  | zero => rfl
  | succ n ih =>
    rw [squeeze, List.length_append, flatMap_leBytes_length, ih (keccakF_length h), List.length_take, h]
    omega

theorem sponge_length (suffix : Byte) (msg : Bytes) (n : Nat) : (sponge suffix msg n).length = n := by
  simp only [sponge, List.length_take]
  rw [squeeze_length (absorb_length (by simp))]
  omega

theorem kmac256_length (key msg : Bytes) (n : Nat) (custom : Bytes) : (kmac256 key msg n custom).length = n := by
  simp only [kmac256, cshake256, shake256]
  split <;> exact sponge_length _ _ _

theorem mrnTag_length (key bs : Bytes) : (mrnTag key bs).length = 16 := kmac256_length _ _ _ _

end Sys2Proof.Machine
end

