-- ==== Sys2Proof/Laws/Notes.lean ====
section
/-!
SUPPORT. What the operations that note, send, raise, trigger and stop can do: one lemma each. All but the stop change nothing that a
program can see (`State.notesOnly`); a stop leaves every spindle as `Spindle.halt` does, the record, and memory as it was.
-/
namespace Sys2Proof.Machine

theorem State.notesOnly_refl (s : State) : s.notesOnly s := rfl

theorem State.notesOnly_trans {s t u : State} (h : s.notesOnly t) (k : t.notesOnly u) : s.notesOnly u := by
  unfold State.notesOnly at *
  rw [k, h]

theorem State.notesOnly_mrn (s : State) (m : Miornal) : s.notesOnly { s with mrn := m } := rfl
theorem State.notesOnly_trace (s : State) (t : TraceUnit) : s.notesOnly { s with trace := t } := rfl
theorem State.notesOnly_evtSent (s : State) (t : Tbl Nat) : s.notesOnly { s with evtSent := t } := rfl
theorem State.notesOnly_setPage (s : State) (p : Nat) (x : PageHdr) : s.notesOnly (s.setPage p x) := rfl
theorem State.notesOnly_setRing (s : State) (p : Nat) (x : Ring) : s.notesOnly (s.setRing p x) := rfl
theorem State.notesOnly_setSession (s : State) (i : Nat) (x : Session) : s.notesOnly (s.setSession i x) := rfl
theorem State.notesOnly_count (s : State) (p k n : Nat) : s.notesOnly (s.count p k n) := rfl

theorem State.notesOnly_latchErr (s : State) (p : Nat) (c : W16) (i : W32) : s.notesOnly (s.latchErr p c i) := rfl

/-- What holds of a note holds of a fold of notes. -/
theorem State.notesOnly_foldl {α : Type} (f : State → α → State) (hf : ∀ (s : State) (a : α), s.notesOnly (f s a)) (l : List α) (s : State) :
    s.notesOnly (l.foldl f s) := by
  induction l generalizing s with
  | nil => exact State.notesOnly_refl s
  | cons a l ih => exact State.notesOnly_trans (hf s a) (ih _)

theorem State.notesOnly_ite {s t u : State} {c : Prop} [Decidable c] (ht : s.notesOnly t) (hu : s.notesOnly u) :
    s.notesOnly (if c then t else u) := by
  split
  · exact ht
  · exact hu

theorem State.notesOnly_xtPut (s : State) (r : TraceRec) : s.notesOnly (s.xtPut r) := by
  unfold State.xtPut
  extract_lets t stopped noRoom g s1 t1 full
  have h1 : s.notesOnly s1 :=
    State.notesOnly_ite (State.notesOnly_count ..) (State.notesOnly_ite (State.notesOnly_trace ..) (State.notesOnly_trace ..))
  exact State.notesOnly_ite (State.notesOnly_trans h1 (State.notesOnly_trace ..)) h1

theorem State.notesOnly_note (s : State) (p c f a : Nat) (e : Option Bytes) : s.notesOnly (s.note p c f a e) := by
  unfold State.note
  extract_lets b r q s1
  have h1 : s.notesOnly s1 := State.notesOnly_setRing ..
  exact State.notesOnly_ite (State.notesOnly_trans h1 (State.notesOnly_xtPut ..)) h1

theorem State.notesOnly_countTx (s : State) (p n : Nat) (b : Bool) : s.notesOnly (s.countTx p n b) :=
  State.notesOnly_ite (State.notesOnly_refl s)
    (State.notesOnly_trans (State.notesOnly_count ..) (State.notesOnly_trans (State.notesOnly_count ..) (State.notesOnly_count ..)))

theorem State.notesOnly_sendPlainFrame (s : State) (u : PlainUse) (p d : Nat) (v : Bool) (a : BitVec 128) (n : Nat) :
    s.notesOnly (s.sendPlainFrame u p d v a n) :=
  State.notesOnly_trans (State.notesOnly_mrn s _) (State.notesOnly_countTx ..)

theorem State.notesOnly_resolve (s : State) (p : Nat) (v6 : Bool) : s.notesOnly (s.resolve p v6) := by
  unfold State.resolve
  extract_lets x known
  exact State.notesOnly_ite (State.notesOnly_refl s)
    (State.notesOnly_ite (State.notesOnly_sendPlainFrame ..) (State.notesOnly_sendPlainFrame ..))

theorem State.notesOnly_countSent (s : State) (plane p : Nat) (v6 : Bool) (n : Nat) : s.notesOnly (s.countSent plane p v6 n) :=
  State.notesOnly_trans (State.notesOnly_resolve s p v6) (State.notesOnly_trans (State.notesOnly_mrn _ _) (State.notesOnly_countTx ..))

theorem State.notesOnly_sendFrame (s : State) (plane kind seq dst : Nat) (a : BitVec 128) (n : Nat) :
    s.notesOnly (s.sendFrame plane kind seq dst a n).1 := by
  unfold State.sendFrame
  split
  · exact State.notesOnly_refl s
  · exact State.notesOnly_ite (State.notesOnly_refl s) (State.notesOnly_countSent ..)

theorem State.notesOnly_emit (s : State) (i typ seq : Nat) (m : Msg) (r : Bool) : s.notesOnly (s.emit i typ seq m r) := by
  unfold State.emit
  extract_lets x ack tagged flags sack ce a hdr tag s1
  have h1 : s.notesOnly s1 := State.notesOnly_ite (State.notesOnly_setSession ..) (State.notesOnly_refl _)
  exact State.notesOnly_ite (State.notesOnly_refl s) (State.notesOnly_trans h1 (State.notesOnly_trans (State.notesOnly_sendFrame ..)
    (State.notesOnly_trans (State.notesOnly_mrn _ _) (State.notesOnly_count ..))))

theorem State.notesOnly_sendPlain (s : State) (i typ : Nat) (b : Bytes) : s.notesOnly (s.sendPlain i typ b) := State.notesOnly_emit ..

theorem State.notesOnly_pktRecord (s : State) (i c p q t e : Nat) (b : Bool) (o : Nat) : s.notesOnly (s.pktRecord i c p q t e b o) := by
  unfold State.pktRecord
  exact State.notesOnly_ite (State.notesOnly_refl s) (State.notesOnly_note ..)

theorem State.notesOnly_transmit (s : State) (i : Nat) (m : Msg) : s.notesOnly (s.transmit i m) := by
  unfold State.transmit
  extract_lets x s1 s2
  have h2 : s.notesOnly s2 := State.notesOnly_trans (State.notesOnly_setSession s i _) (State.notesOnly_emit ..)
  refine State.notesOnly_ite h2 ?_
  split
  · exact State.notesOnly_trans h2 (State.notesOnly_pktRecord ..)
  · exact h2

theorem State.notesOnly_post (s : State) (i : Nat) (m : Msg) : s.notesOnly (s.post i m) := by
  unfold State.post
  exact State.notesOnly_ite (State.notesOnly_transmit ..) (State.notesOnly_setSession ..)

theorem State.notesOnly_flushQueued (i n : Nat) (s : State) : s.notesOnly (State.flushQueued i n s) := by
  induction n generalizing s with
  | zero => exact State.notesOnly_refl s
  | succ n ih =>
    simp only [State.flushQueued]
    split
    · exact State.notesOnly_refl s
    · refine State.notesOnly_ite ?_ (State.notesOnly_refl s)
      exact State.notesOnly_trans (State.notesOnly_setSession s i _) (State.notesOnly_trans (State.notesOnly_transmit ..) (ih _))

theorem State.notesOnly_sendEvents (s : State) (p b : Nat) (r : Bytes) : s.notesOnly (s.sendEvents p b r) := by
  unfold State.sendEvents
  refine State.notesOnly_foldl _ (fun s i => ?_) _ _
  dsimp only
  split
  · split
    · exact State.notesOnly_trans (State.notesOnly_evtSent s _) (State.notesOnly_post ..)
    · exact State.notesOnly_count ..
  · exact State.notesOnly_refl s

theorem State.notesOnly_raiseN (s : State) (p b f a : Nat) (e : Option Bytes) : s.notesOnly (s.raiseN p b f a e) := by
  unfold State.raiseN
  extract_lets h s1 blk r s2
  have h2 : s.notesOnly s2 := State.notesOnly_trans (State.notesOnly_setPage ..) (State.notesOnly_note ..)
  exact State.notesOnly_ite h2 (State.notesOnly_trans h2 (State.notesOnly_sendEvents ..))

theorem State.notesOnly_xtEvent (s : State) : s.notesOnly s.xtEvent := by
  unfold State.xtEvent
  exact State.notesOnly_ite (State.notesOnly_trans (State.notesOnly_trace s _) (State.notesOnly_raiseN ..)) (State.notesOnly_refl s)

theorem State.notesOnly_signal (s : State) (p b f a : Nat) (e : Option Bytes) : s.notesOnly (s.signal p b f a e) :=
  State.notesOnly_trans (State.notesOnly_raiseN ..) (State.notesOnly_xtEvent _)

theorem State.notesOnly_release (s : State) (i : Nat) : s.notesOnly (s.release i) :=
  State.notesOnly_trans (State.notesOnly_evtSent s _) (State.notesOnly_setSession ..)

theorem State.notesOnly_resyncOut (s : State) (i : Nat) : s.notesOnly (s.resyncOut i) :=
  State.notesOnly_trans (State.notesOnly_setSession s i _)
    (State.notesOnly_trans (State.notesOnly_sendPlain ..) (State.notesOnly_trans (State.notesOnly_count ..) (State.notesOnly_signal ..)))

theorem State.notesOnly_countFailed (s : State) (e i f : Nat) : s.notesOnly (s.countFailed e i f) :=
  State.notesOnly_trans (State.notesOnly_mrn s _) (State.notesOnly_trans (State.notesOnly_count ..) (State.notesOnly_signal ..))

/-- An action of a session event whose parts are notes is a note. -/
theorem State.notesOnly_act {h : Acts} (ha : ∀ (s : State) i, s.notesOnly (h.answer s i)) (he : ∀ (s : State) i, s.notesOnly (h.establish s i))
    (hr : ∀ (s : State) i, s.notesOnly (h.receive s i)) (hg : ∀ (s : State) i, s.notesOnly (h.again s i)) (hf : ∀ e (s : State) i, s.notesOnly (h.fail e s i))
    (e i : Nat) (s : State) (a : Nat) : s.notesOnly (State.act h e i s a) := by
  unfold State.act
  split
  · exact State.notesOnly_sendPlain ..
  · exact ha s i
  · exact he s i
  · exact hr s i
  · exact hg s i
  · exact State.notesOnly_trans (State.notesOnly_setSession s i _) (State.notesOnly_sendPlain ..)
  · exact State.notesOnly_resyncOut ..
  · exact State.notesOnly_setSession ..
  · exact State.notesOnly_sendPlain ..
  · exact State.notesOnly_sendPlain ..
  · exact State.notesOnly_sendPlain ..
  · exact hf e s i
  · exact State.notesOnly_release ..
  · exact State.notesOnly_refl s

/-- An event of a session slot that brings nothing with it is a note. -/
theorem State.notesOnly_firePlain {f : Nat → State → Nat → State} (hf : ∀ e (s : State) i, s.notesOnly (f e s i)) (e : Nat) (s : State) (i : Nat) :
    s.notesOnly (s.fire (Acts.plain f) e i) := by
  unfold State.fire
  extract_lets x c s1
  have h1 : s.notesOnly s1 := State.notesOnly_ite (State.notesOnly_count ..) (State.notesOnly_refl s)
  exact State.notesOnly_trans h1 (State.notesOnly_trans (State.notesOnly_setSession ..)
    (State.notesOnly_foldl _ (State.notesOnly_act (fun s _ => State.notesOnly_refl s) (fun s _ => State.notesOnly_refl s)
      (fun s _ => State.notesOnly_refl s) (fun s _ => State.notesOnly_refl s) hf e i) _ _))

theorem State.notesOnly_ownResync (s : State) (i : Nat) : s.notesOnly (s.ownResync i) :=
  State.notesOnly_firePlain (fun e s i => State.notesOnly_countFailed s e i 0) 10 s i

theorem State.notesOnly_resyncSpent (n : Nat) (s : State) : s.notesOnly (State.resyncSpent n s) := by
  induction n generalizing s with
  | zero => exact State.notesOnly_refl s
  | succ n ih =>
    simp only [State.resyncSpent]
    split
    · exact State.notesOnly_trans (State.notesOnly_ownResync ..) (ih _)
    · exact State.notesOnly_refl s

/-- A record, and a raise: notes alone. -/
theorem State.notesOnly_record (s : State) (p c f a : Nat) (e : Option Bytes) : s.notesOnly (s.record p c f a e) :=
  State.notesOnly_trans (State.notesOnly_trans (State.notesOnly_note ..) (State.notesOnly_xtEvent _)) (State.notesOnly_resyncSpent ..)

theorem State.notesOnly_raiseX (s : State) (p b f a : Nat) (e : Option Bytes) : s.notesOnly (s.raiseX p b f a e) :=
  State.notesOnly_trans (State.notesOnly_signal ..) (State.notesOnly_resyncSpent ..)

theorem State.notesOnly_raiseF (s : State) (p b f a : Nat) : s.notesOnly (s.raiseF p b f a) := State.notesOnly_raiseX ..

theorem State.notesOnly_raise (s : State) (p b a : Nat) : s.notesOnly (s.raise p b a) := State.notesOnly_raiseF ..

theorem State.notesOnly_trigger (s : State) (src : Nat) : s.notesOnly (s.trigger src).1 := by
  unfold State.trigger
  split
  · exact State.notesOnly_refl s
  · split
    · exact State.notesOnly_trans (State.notesOnly_trace s _) (State.notesOnly_raiseF ..)
    · exact State.notesOnly_trans (State.notesOnly_trace s _) (State.notesOnly_count ..)

theorem State.notesOnly_send (s : State) (i : Nat) (m : Msg) : s.notesOnly (s.send i m) :=
  State.notesOnly_trans (State.notesOnly_post s i m) (State.notesOnly_ite (State.notesOnly_ownResync ..) (State.notesOnly_refl _))

theorem State.notesOnly_sendStatusAt (s : State) (c : Nat) (e : W16) (a p : Nat) : s.notesOnly (s.sendStatusAt c e a p) := by
  unfold State.sendStatusAt
  split
  · exact State.notesOnly_send ..
  · exact State.notesOnly_refl s

theorem State.notesOnly_sendStatus (s : State) (c : Nat) (e : W16) (a : Nat) : s.notesOnly (s.sendStatus c e a) :=
  State.notesOnly_sendStatusAt ..

/-! ### What notes leave alone, read off one field at a time -/

section
variable {s t : State} (h : s.notesOnly t)
include h
theorem State.notesOnly.mem : t.mem = s.mem := by rw [h]
theorem State.notesOnly.bad : t.bad = s.bad := by rw [h]
theorem State.notesOnly.sp : t.sp = s.sp := by rw [h]
theorem State.notesOnly.sk : t.sk = s.sk := by rw [h]
theorem State.notesOnly.job : t.job = s.job := by rw [h]
theorem State.notesOnly.knots : t.knots = s.knots := by rw [h]
theorem State.notesOnly.waiters : t.waiters = s.waiters := by rw [h]
theorem State.notesOnly.queues : t.queues = s.queues := by rw [h]
theorem State.notesOnly.stations : t.stations = s.stations := by rw [h]
theorem State.notesOnly.trd : t.trd = s.trd := by rw [h]
theorem State.notesOnly.power : t.power = s.power := by rw [h]
theorem State.notesOnly.trust : t.trust = s.trust := by rw [h]
theorem State.notesOnly.pending : t.pending = s.pending := by rw [h]
theorem State.notesOnly.free : t.free = s.free := by rw [h]
theorem State.notesOnly.spindle (n : Nat) : t.spindle n = s.spindle n := by rw [h]; rfl
theorem State.notesOnly.skein (k : Nat) : t.skein k = s.skein k := by rw [h]; rfl
theorem State.notesOnly.knot (k : Nat) : t.knot k = s.knot k := by rw [h]; rfl
theorem State.notesOnly.byte (a : Nat) : t.byte a = s.byte a := by rw [h]; rfl
theorem State.notesOnly.load (a n : Nat) : t.load a n = s.load a n := by rw [h]; rfl
end

/-! ### Stops -/

@[simp] theorem Spindle.halt_reset : Spindle.reset.halt = Spindle.reset := rfl

/-- A stop of a job that has stopped already, or of none, changes nothing (R329). -/
theorem State.stopJobM_quiet {s : State} (r : StopRec) (m : Bool) (h : s.jobLive = false) : s.stopJobM r m = s := by
  simp [State.stopJobM, h]

/-- A stop (R284, R329): the job is STOPPED with the record, every spindle halts, no waiter is left, memory and knots stay. -/
theorem State.stopJobM_spec {s : State} (r : StopRec) (m : Bool) (h : s.jobLive = true) :
    (s.stopJobM r m).job.state = .stopped ∧ (s.stopJobM r m).job.stop = r ∧ (s.stopJobM r m).sp = s.sp.mapV Spindle.halt
      ∧ (s.stopJobM r m).waiters = [] ∧ (s.stopJobM r m).mem = s.mem ∧ (s.stopJobM r m).bad = s.bad ∧ (s.stopJobM r m).knots = s.knots
      ∧ (s.stopJobM r m).power = s.power ∧ (s.stopJobM r m).trust = s.trust ∧ (s.stopJobM r m).trd = s.trd := by
  have ht := State.notesOnly_trigger s 4
  unfold State.stopJobM
  simp only [h, Bool.not_true, Bool.false_eq_true, if_false]
  generalize s.trigger 4 = c at ht
  obtain ⟨u, cap⟩ := c
  have hs : ∀ v : State, v.notesOnly
      ((v.raiseF pgMOD 1 (trgFlag (cap || m)) (r.code.toNat * 2 ^ 16 + r.station)).sendStatus 3 r.code 0) :=
    fun v => State.notesOnly_trans (State.notesOnly_raiseF ..) (State.notesOnly_sendStatus ..)
  have hv := hs { u with
    job := { u.job with state := .stopped, stop := r, runs := u.job.runs.mapV CollRun.halt, gathers := [], unsent := [] },
    sp := u.sp.mapV Spindle.halt,
    sk := u.sk.mapV fun (k : Skein) => { k with spillWait := [], spillUsed := [], quotaUsed := [], masks := [] },
    queues := u.queues.mapV fun (q : Queue) => { q with waiting := [] }, waiters := [], transit := [], stations := u.stations.mapV Station.halt }
  simp only at ht
  refine ⟨?_, ?_, ?_, ?_, ?_, ?_, ?_, ?_, ?_, ?_⟩
  · rw [hv.job]
  · rw [hv.job]
  · rw [hv.sp, ht.sp]
  · rw [hv.waiters]
  · rw [hv.mem, ht.mem]
  · rw [hv.bad, ht.bad]
  · rw [hv.knots, ht.knots]
  · rw [hv.power, ht.power]
  · rw [hv.trust, ht.trust]
  · rw [hv.trd, ht.trd]

/-- A spindle's stop (R284): notes first, then the stop of the job with the record of its place. -/
theorem State.stopFlag_spec (s : State) (n k : Nat) (f : TileFail) :
    ∃ u : State, s.notesOnly u ∧ s.stopFlag n k f = u.stopJobM
      { code := f.code, station := (s.spindle n).station, spindle := n, sliver := (s.spindle n).sliver, pc := (s.spindle n).pc,
        tensor := f.tensor, row := f.row, col := f.col, index := f.index, crc := f.crc } false :=
  ⟨_, State.notesOnly_trans (State.notesOnly_latchErr s _ _ _) (State.notesOnly_raiseF ..), rfl⟩

/-- A stop keeps memory and knots, whether or not the job was live. -/
theorem State.stopJobM_keeps (s : State) (r : StopRec) (m : Bool) : (s.stopJobM r m).mem = s.mem ∧ (s.stopJobM r m).knots = s.knots := by
  cases h : s.jobLive with
  | true =>
    obtain ⟨-, -, -, -, hm, -, hk, -⟩ := State.stopJobM_spec r m h
    exact ⟨hm, hk⟩
  | false => rw [State.stopJobM_quiet _ _ h]; exact ⟨rfl, rfl⟩

theorem State.stopSp_keeps (s : State) (n : Nat) (c : W16) : (s.stopSp n c).mem = s.mem ∧ (s.stopSp n c).knots = s.knots := by
  obtain ⟨u, hu, e⟩ := State.stopFlag_spec s n 0 (TileFail.ofCode c)
  show (s.stopFlag n 0 (TileFail.ofCode c)).mem = _ ∧ (s.stopFlag n 0 (TileFail.ofCode c)).knots = _
  rw [e, (State.stopJobM_keeps u _ false).1, (State.stopJobM_keeps u _ false).2]
  exact ⟨hu.mem, hu.knots⟩

end Sys2Proof.Machine
end

