-- ==== Sys2Proof/Laws/Knots.lean ====
section
/-!
SUPPORT. What an operation on a knot can do, and that every write to memory keeps its canonical form.
-/
namespace Sys2Proof.Machine

theorem State.notesOnly_knotRecord (s : State) (k op : Nat) (a b : W64) (r : Nat) : s.notesOnly (s.knotRecord k op a b r) := by
  unfold State.knotRecord
  exact State.notesOnly_ite (State.notesOnly_record ..) (State.notesOnly_refl s)

theorem State.notesOnly_genEvent (s : State) (b : Nat) (v : W64) : s.notesOnly (s.genEvent b v) :=
  State.notesOnly_trans (State.notesOnly_raise s _ _ _) (State.notesOnly_record ..)

theorem State.notesOnly_genWatch (s : State) (k : Nat) (a b : W64) : s.notesOnly (s.genWatch k a b) := by
  unfold State.genWatch
  split
  · exact State.notesOnly_refl s
  · refine State.notesOnly_ite (State.notesOnly_refl s) (State.notesOnly_ite (State.notesOnly_genEvent ..) ?_)
    exact State.notesOnly_ite (State.notesOnly_genEvent ..) (State.notesOnly_ite (State.notesOnly_genEvent ..) (State.notesOnly_refl s))

/-- An ADD or a SET (R309, R341): the knot's value, the marks of its waiters, and notes. -/
theorem State.knotWrite_spec (s : State) (k op : Nat) (v : W64) (r : Nat) :
    let new := if op == 0 then (s.knot k).value + v else v
    (s.knotWrite k op v r).knots = (s.setKnot k { s.knot k with value := new }).knots
      ∧ (s.knotWrite k op v r).waiters = markWaiters s.waiters k new
      ∧ ({ s with knots := (s.knotWrite k op v r).knots, waiters := (s.knotWrite k op v r).waiters } : State).notesOnly
          (s.knotWrite k op v r) := by
  intro new
  have h := State.notesOnly_trans
    (State.notesOnly_knotRecord { s.setKnot k { s.knot k with value := new } with waiters := markWaiters s.waiters k new } k op v new r)
    (State.notesOnly_genWatch _ k (s.knot k).value new)
  have e : s.knotWrite k op v r = (State.knotRecord { s.setKnot k { s.knot k with value := new } with
      waiters := markWaiters s.waiters k new } k op v new r).genWatch k (s.knot k).value new := rfl
  rw [e]
  have hk := h.knots
  have hw := h.waiters
  refine ⟨hk, hw, ?_⟩
  unfold State.notesOnly at h ⊢
  rw [hk, hw]
  exact h

/-- The knot reads its new value, and every other knot as before. -/
theorem State.knot_knotWrite {s : State} (k op : Nat) (v : W64) (r : Nat) (h : s.knots.wf Knot.reset = true) :
    ((s.knotWrite k op v r).knot k).value = (if op == 0 then (s.knot k).value + v else v)
      ∧ ∀ j, j ≠ k → (s.knotWrite k op v r).knot j = s.knot j := by
  obtain ⟨hk, -⟩ := State.knotWrite_spec s k op v r
  constructor
  · rw [State.knot, hk]
    exact congrArg Knot.value (Tbl.get_set_self h)
  · intro j hj
    rw [State.knot, hk]
    exact Tbl.get_set_ne h hj

theorem State.knots_knotWrite_wf {s : State} (k op : Nat) (v : W64) (r : Nat) (h : s.knots.wf Knot.reset = true) :
    (s.knotWrite k op v r).knots.wf Knot.reset = true := by
  rw [(State.knotWrite_spec s k op v r).1]
  exact Tbl.wf_set h

/-! ### Writes -/

theorem State.memOk_notes {s t : State} (h : s.notesOnly t) (hm : s.memOk = true) : t.memOk = true := State.memOk_of_eq h.mem hm

theorem State.memOk_localPut {s : State} (n a : Nat) (bs : Bytes) (h : s.memOk = true) : (s.localPut n a bs).memOk = true :=
  State.memOk_poke _ _ (State.memOk_of_eq rfl h)

/-- A store by the core of spindle `n`: its bytes at the local address, every other byte as before (R313, R314). -/
theorem State.byte_localPut {s : State} (n a b : Nat) (bs : Bytes) (h : s.memOk = true) :
    (s.localPut n a bs).byte b =
      if localBase n + a ≤ b ∧ b < localBase n + a + bs.length then bs.getD (b - (localBase n + a)) 0 else s.byte b := by
  exact State.byte_poke _ _ _ (State.memOk_of_eq (s := s) rfl h)

theorem State.memOk_devicePut {s : State} (a : Nat) (bs : Bytes) (sp : Option Nat) (h : s.memOk = true) :
    (s.devicePut a bs sp).memOk = true := by
  unfold State.devicePut
  split
  · exact State.memOk_store _ _ _ h
  · rename_i parts _
    generalize localParts a bs.length = l
    suffices ∀ (l : List (Nat × Nat × Nat)) (s : State) (rest : Bytes), s.memOk = true →
        ((l.foldl (fun (s, rest) (m, off, k) => (s.localPut m off (rest.take k), rest.drop k)) (s, rest) : State × Bytes).1).memOk = true from
      this _ _ _ h
    intro l
    induction l with
    | nil => exact fun _ _ h => h
    | cons p l ih => exact fun s rest h => ih _ _ (State.memOk_localPut _ _ _ h)

end Sys2Proof.Machine
end

