-- ==== Sys2Proof/Laws/Stream.lean ====
section
/-!
SUPPORT. What a demand read and consuming a tile do.
-/
namespace Sys2Proof.Machine

/-- A read of memory without a bad line and without a corrected word counts nothing (R358, R362). -/
@[simp] theorem State.demandRead_clean {s : State} (a n : Nat) (hb : s.bad = []) (hs : s.soft = []) : s.demandRead a n = s := by
  simp [State.demandRead, hb, hs]

@[simp] theorem State.uncorr_clean {s : State} (a n : Nat) (hb : s.bad = []) : s.uncorr a n = false := by simp [State.uncorr, hb]

/-- A tile that passes its checks, read without UNCORR, is consumed; the read counts its corrections alone (R364–R366). -/
theorem State.consume_read {s : State} {c : Consumer} {a : Nat} {accept : Desc → Option W16} {t : Tile}
    (hu : s.uncorr a (Desc.parse (s.loadNew a 64)).stored = false)
    (h : checkTile (s.loadNew a (Desc.parse (s.loadNew a 64)).stored) accept = .ok t) :
    s.consume c a accept = (.ok t, s.demandRead a (Desc.parse (s.loadNew a 64)).stored) := by
  simp [State.consume, hu, h]

/-- A tile that passes its checks, in memory without errors, is consumed and changes nothing (R364–R366). -/
theorem State.consume_ok {s : State} {c : Consumer} {a : Nat} {accept : Desc → Option W16} {t : Tile} (hb : s.bad = []) (hs : s.soft = [])
    (h : checkTile (s.loadNew a (Desc.parse (s.loadNew a 64)).stored) accept = .ok t) : s.consume c a accept = (.ok t, s) := by
  rw [State.consume_read (State.uncorr_clean _ _ hb) h, State.demandRead_clean _ _ hb hs]

end Sys2Proof.Machine
end

