-- ==== Sys2Proof/WellFormed.lean ====
section
/-!
DEFINITION. Well-formed commands: every operand that numbers a unit lies in the range the spec gives that unit (R30, R50,
R186, R355, R433, R622, R660, R662), and a packet or frame has fields of the widths that R473 and R518 give them. An
ill-formed command is no command of the module; its meaning is still total.
-/
namespace Sys2Proof

/-- A packet's fields fit the header of R473: 32-bit session and epoch, 48-bit sequence numbers, the payload length that
MH_LEN can say, and a tag of 16 bytes or none (R475). -/
def Machine.Packet.wf (p : Machine.Packet) : Bool :=
  decide (p.port ≤ 8) && decide (p.srcPort < 65536) && decide (p.version < 256) && decide (p.session < 2 ^ 32)
    && decide (p.epoch < 2 ^ 32) && decide (p.seq < 2 ^ 48) && decide (p.ack < 2 ^ 48) && decide (p.len < 65536)
    && decide (p.ceCount < 65536) && decide (p.payload.length ≤ 8960) && (p.tag.length == 0 || p.tag.length == 16)

/-- A treadle frame's fields fit the widths of R518. -/
def Machine.TFrame.wf (f : Machine.TFrame) : Bool := decide (f.op < 256) && decide (f.arg < 2 ^ 40)

/-- The packet types that have rows of their own: all that a partner may send (R493). -/
def Machine.rowTypes : List Nat :=
  [1, 3, 4, 5, 6, 7, 8, 9, 0xA, 0xB, 0x100, 0x101, 0x102, 0x103, 0x104, 0x105, 0x106, 0x107, 0x108, 0x109, 0x200, 0x201, 0x202, 0x203, 0x204,
   0x300, 0x301, 0x302, 0x303, 0x400, 0x401, 0x402, 0x403, 0x404, 0x405, 0x406, 0x407]

/-- A frame's port, address and UDP port fit R436 to R441. -/
def Machine.Frame.wf (f : Machine.Frame) : Bool :=
  decide (f.port < 9) && decide (f.dst < 2 ^ 48) && decide (f.srcMac < 2 ^ 48) && decide (f.dstPort < 65536)
    && (match f.foreign with
      | some (p, typ) => p.wf && decide (typ < 65536) && !(rowTypes.contains typ)
      | none => true)

/-- The 64 KiB pages of device addresses below the end of module memory (R355, R380). -/
def dramPages : Nat := 0x018000000000 / 65536

/-- Operands in range. -/
def Instr.wf : Instr → Bool
  | .scalarAlu n => decide (n < 4608)
  | .aluImmediate n => decide (n < 4608)
  | .li n => decide (n < 4608)
  | .ld n => decide (n < 4608)
  | .st n => decide (n < 4608)
  | .ldD n _ => decide (n < 4608)
  | .stD n _ => decide (n < 4608)
  | .atomD n _ => decide (n < 4608)
  | .atom n => decide (n < 4608)
  | .conditionalBranch n => decide (n < 4608)
  | .jal n => decide (n < 4608)
  | .jr n => decide (n < 4608)
  | .movs n => decide (n < 4608)
  | .endStation n => decide (n < 4608)
  | .vectorF32 n => decide (n < 4608)
  | .vrsumF32 n => decide (n < 4608)
  | .vectorInteger n => decide (n < 4608)
  | .vld n => decide (n < 4608)
  | .vst n => decide (n < 4608)
  | .maskOperations n => decide (n < 4608)
  | .mpop n => decide (n < 4608)
  | .vbcast n => decide (n < 4608)
  | .vext n => decide (n < 4608)
  | .vperm n => decide (n < 4608)
  | .vsel n => decide (n < 4608)
  | .cvt n => decide (n < 4608)
  | .curve n => decide (n < 4608)
  | .curveD n => decide (n < 4608)
  | .curveGumbel n => decide (n < 4608)
  | .fmmLdw n => decide (n < 4608)
  | .fmm n => decide (n < 4608)
  | .bmmLdb n => decide (n < 4608)
  | .bmm n => decide (n < 4608)
  | .arrayPassRetire n => decide (n < 4608)
  | .bmmDefer n => decide (n < 4608)
  | .bmmDone n => decide (n < 4608)
  | .bmmYieldQ n => decide (n < 4608)
  | .bmmYieldK n => decide (n < 4608)
  | .bmmFlush n => decide (n < 4608)
  | .escTerm n => decide (n < 4608)
  | .accOpen n => decide (n < 4608)
  | .accRnd n => decide (n < 4608)
  | .accSave n => decide (n < 4608)
  | .accAddx n => decide (n < 4608)
  | .accClear n => decide (n < 4608)
  | .pull n => decide (n < 4608)
  | .pullH n => decide (n < 4608)
  | .pullRel n => decide (n < 4608)
  | .push n => decide (n < 4608)
  | .pushClose n => decide (n < 4608)
  | .pullA x => decide (x.n < 4608)
  | .pushA x => decide (x.n < 4608)
  | .transferComplete n _ => decide (n < 4608)
  | .knotAdd n => decide (n < 4608)
  | .knotSet n => decide (n < 4608)
  | .knotWge n => decide (n < 4608)
  | .knotWeq n => decide (n < 4608)
  | .knotRd n => decide (n < 4608)
  | .knotWake die => decide (die < 4)
  | .knotTimeout n => decide (n < 4608)
  | .queueTimeout n => decide (n < 4608)
  | .queueFullTimeout n => decide (n < 4608)
  | .rngU n => decide (n < 4608)
  | .rngN n => decide (n < 4608)
  | .rngMask n => decide (n < 4608)
  | .maskComplete k => decide (k < 72)
  | .rngSample n => decide (n < 4608)
  | .sampleRequestServe die => decide (die < 4)
  | .evtMark n => decide (n < 4608)
  | .evtTrig n => decide (n < 4608)
  | .bankGive n => decide (n < 4608)
  | .bankTake n => decide (n < 4608)
  | .bankShare n => decide (n < 4608)
  | .stationStart station sliver => decide (station < 65536) && decide (sliver < 4608)
  | .startSeqGrant => true
  | .skeinReady k => decide (k < 72)
  | .powerDomainRaise domain => decide (domain < 144)
  | .prologueTrigger station k => decide (station < 65536) && decide (k < 72)
  | .stationWatchdog station => decide (station < 65536)
  | .trackerReport k => decide (k < 72)
  | .trackerStep k j => decide (k < 72) && decide (j < 256)
  | .trackerWaitTimeout n => decide (n < 4608)
  | .spillReservation k => decide (k < 72)
  | .spillWait n => decide (n < 4608)
  | .spillWaitTimeout n => decide (n < 4608)
  | .genSlotBuilt => true
  | .beatEdge => true
  | .vote f => f.wf && f.op == 1
  | .tally f => f.wf && f.op == 2
  | .commit f => f.wf && f.op == 3
  | .defer f => f.wf && f.op == 4
  | .commitComplete _ => true
  | .commitUndecided => true
  | .stop f => f.wf && f.op == 5
  | .bypass f => f.wf && f.op == 6
  | .unbypass f => f.wf && f.op == 7
  | .nop f => f.wf && f.op == 0
  | .treadleLost => true
  | .bypassSwitchChange => true
  | .ringHoldExpiry => true
  | .roster p => p.wf
  | .heartbeat p => p.wf
  | .heartbeatTimer => true
  | .failed p => p.wf
  | .takeover p => p.wf
  | .status p => p.wf
  | .collateralWaitExpiry => true
  | .hello p => p.wf
  | .prove p => p.wf
  | .openOk p => p.wf
  | .openRefused p => p.wf
  | .ack p => p.wf
  | .probe p => p.wf
  | .resync p => p.wf
  | .resyncAck p => p.wf
  | .close p => p.wf
  | .closeAck p => p.wf
  | .identify p => p.wf
  | .regRead p => p.wf
  | .regWrite p => p.wf
  | .subscribe p => p.wf
  | .jobLoad p _ => p.wf
  | .jobUnload p => p.wf
  | .bulkCreateSnapshot p => p.wf
  | .bulkCreateImage p => p.wf
  | .bulkCreateJobBundle p => p.wf
  | .bulkCreateRestore p => p.wf
  | .bulkCreateDump p => p.wf
  | .bulkCreateTrace p => p.wf
  | .bulkCancel p => p.wf
  | .dump p => p.wf
  | .attest p => p.wf
  | .bulkData p => p.wf
  | .bulkJournal p => p.wf
  | .bulkEnd p => p.wf
  | .bulkAbort p => p.wf
  | .tileSeg p => p.wf
  | .tileResend p => p.wf
  | .grant p => p.wf
  | .contribRetry p => p.wf
  | .gatherReq g => (match g with
    | .received p => p.wf
    | .issued g => decide (g.owner < 65535) && decide (g.tensor < 2 ^ 32) && decide (g.gen < 65536) && !g.tiles.isEmpty && decide (g.tiles.length ≤ 2236)
        && (g.tiles.all fun t => decide (t.1 < 2 ^ 32) && t.2 % 64 == 0 && decide (t.2 < 2 ^ 64)) && decide (g.knot < 8192)
        && decide (g.station < 4096))
  | .versionGone p => p.wf
  | .abort p => p.wf
  | .count p => p.wf
  | .tSusExpiry i => decide (i < 8192)
  | .idleProbe i => decide (i < 8192)
  | .tDeadExpiry i => decide (i < 8192)
  | .tOpenExpiry i => decide (i < 8192)
  | .helloRepeat i => decide (i < 8192)
  | .resyncRepeat i => decide (i < 8192)
  | .closeRepeat i => decide (i < 8192)
  | .ackDelayExpiry i => decide (i < 8192)
  | .retransmissionTimeout i => decide (i < 8192)
  | .bulkHoldExpiry _ => true
  | .bulkHelloRepeat _ => true
  | .bulkJournalTimer _ => true
  | .eventRateInterval => true
  | .ethFrameRx fr => fr.wf
  | .portDown port => decide (port < 8)
  | .portRejoin port => decide (port < 8)
  | .collectiveTrigger rec => decide (rec < 65536)
  | .collectiveTimeout rec => decide (rec < 65536)
  | .stratumScrub die _ => decide (die < 4)
  | .lpdScrub q _ => decide (q < 2)
  | .lpdRetrain q chan _ => decide (q < 2) && decide (chan < 32)
  | .mortarLinkDown link => decide (link < 8)
  | .mgmtWatchdogMiss => true
  | .stratumClearDone die => decide (die < 4)
  | .lpdClearDone q => decide (q < 2)
  | .snapProtectedWrite page => decide (page < dramPages)
  | .snapCopyDone page => decide (page < dramPages)
  | .snapStreamPage => true
  | .snapStreamReadDone => true
  | .snapPoolTimeout => true
  | .powerOn _ => true
  | .pwrEnFall => true
  | .vinOvervoltage => true
  | .vinSwitchClose => true
  | .vinHigh => true
  | .sagDetect => true
  | .sagPaused => true
  | .sagGatherDone => true
  | .sagSaveDone _ => true
  | .sagRecovery => true
  | .sagHoldTimeout => true
  | .vrstReset => true
  | .sagEraseDone => true
  | .governorTick _ => true
  | .coolantLimit => true
  | .pwrModeWrite _ => true
  | .pwrPeakGrantWrite _ => true
  | .peakLeaseExpiry => true
  | .capTestAbandon => true
  | .pwrPinRead => true
  | .boot => true
  | .imageResetTimer => true
  | .fuseRole arg _ => decide (arg < 16777216)
  | .fuseSvnMin arg _ => decide (arg < 16777216)
  | .fuseRevoke arg _ => decide (arg < 16777216)
  | .fuseOwnerInstall arg _ => decide (arg < 16777216)
  | .fuseAddressBlock arg _ => decide (arg < 16777216)
  | .fuseLifeCycle arg _ => decide (arg < 16777216)
  | .fuseLedgerSelWrite _ => true
  | .tamper src => decide (src < 4)
  | .secTamperClear _ _ => true
  | .pageLock page => decide (page < 4794)
  | .sreset page => decide (page < 4794)
  | .enableWrite page _ => decide (page < 4794)
  | .errValidClear page => decide (page < 4794)
  | .evtPendClear page _ => decide (page < 4794)
  | .evtForce page _ => decide (page < 4794)
  | .counterSnap page => decide (page < 4794)
  | .plyTrkSelWrite k _ => decide (k < 72)
  | .queSelWrite die _ => decide (die < 4)
  | .kntSelWrite die _ => decide (die < 4)
  | .mrnSessSelWrite e _ => decide (e < 2)
  | .plyChanFactorWrite k _ => decide (k < 72)
  | .lpdCtlClear q _ => decide (q < 2)
  | .strFailValidClear die => decide (die < 4)
  | .trdCtlBypass _ => true
  | .evtSelWrite _ => true
  | .evtEnt7Write _ => true
  | .makeSpare => true
  | .trdPosLoRead => true
  | .trcCtlTrig => true
  | .trcCtlRearm => true
  | .ringFreeze page => decide (page < 4794)
  | .postMaxExpiry => true
  | .bulkStallTrigger _ => true
  | .wearDailySample => true
  | .mntReqCapTest => true
  | .mntReqMarginScan port => decide (port < 9)
  | .mntReqCompact => true
  | .mntReqAgeCal => true
  | .mntReqBypassTest => true
  | .mntPeriodicRequest act => decide (act < 8)
  | .maintActivityEnd act _ => decide (act < 8)
  | .mntDeferTimeout act => decide (act < 8)
  | .maintWindowClose => true
  | .ringLock => true
  | .ethLinkUp port lanes _ => decide (port < 8) && decide (lanes < 9)
  | .vinLowBeforePg => true

end Sys2Proof
end

