-- ==== Sys2Proof/Tests/Slice0.lean ====
section
/-!
SUPPORT. Tests: the checks of WellFormed refuse an ill-formed term each, words written out from the spec's encoding tables decode,
worked examples of the spec, and for every statement a state and operands that meet its hypotheses together.
-/
namespace Sys2Proof.Tests
open Sys2Proof.Machine Sys2Proof.Claims

set_option Elab.async false

/-! ### Small states -/

/-- One station on spindle 0, whose code begins at its skein's pool base. -/
def image : StationImage :=
  { number := 1, spindles := [0], codeBase := 0, codeLen := 64, code := [], entry := 0, deferEntry := some 8, deferDepth := 2,
    deferBank := 15, start := .atLoad, banks := [], quota := [(0, 4)], spillQuota := [(0, 8)], timeout := 1000,
    knots := [⟨5, 0, false⟩, ⟨40, 0, false⟩, ⟨43, 0, false⟩], queues := [], prologue := [], trigKnot := 0, trigValue := 0,
    trackers := [], tensors := [(7, 256)], tables := [], image := [], defImage := [] }

def station : Station := ⟨image, [(0, .running)], [], [], [], []⟩

/-- Spindle 0 of the station, at its first instruction. -/
def runner : Spindle := { Spindle.reset with run := .run, station := 1, nsliver := 1 }

/-- A tracker of skein 0, bound to the station and tensor 7. -/
def tracker : Tracker :=
  { Tracker.reset with bound := true, bind := { Binding.none with station := 1, tensor := 7, stepTiles := 1 }, exp := 127 }

/-- A mapping whose generation knots are 40 to 43, and the knots: generation 0 is CURRENT in slot 0, generation 1 BUILT in slot 1. -/
def mapping : Mapping := { (default : Mapping) with genKnot := 40, voteLead := 8, buildInc := 1, areas := [0x20000, 0x30000, 0x40000] }
def knots : Tbl Knot :=
  [(5, ⟨9, true, false⟩), (40, ⟨skValue 3 0 0, true, false⟩), (41, ⟨skValue 2 1 0, true, false⟩), (42, ⟨skValue 4 0 0, true, false⟩),
   (43, ⟨1, true, false⟩), (44, ⟨2, true, false⟩)]

/-- A powered module whose job is loaded. -/
def live : State :=
  { State.reset with
    power := { PowerSt.reset with pg := true, pwrEn := true }
    job := { Job.reset with state := .loaded, serial := 1, mapping := some mapping }
    knots := knots
    dies := [(0, ⟨true, true⟩), (1, ⟨true, true⟩)]
    strat := [(0, { Stratum.reset with ready := true }), (1, { Stratum.reset with ready := true })]
    lpd := [(0, { Lpd.reset with chanUp := 0xFFFFFFFF }), (1, { Lpd.reset with chanUp := 0xFFFFFFFF })]
    stations := [(1, station)]
    sk := [(0, { Skein.reset with power := .ready, trackers := [(0, tracker)] })]
    sp := [(0, runner)] }

/-- No page is being cleared in a module whose strata and quoins are those of the live one, and without a snapshot none is held. -/
theorem live_clearsPage {s : State} (hs : s.strat = live.strat) (hl : s.lpd = live.lpd) (p : Nat) : s.clearsPage p = false := by
  have h1 : ∀ d, (s.strat.get Stratum.reset d).clearing = false := by
    intro d; rw [hs]; simp only [live, Tbl.get]; repeat (first | rfl | split)
  have h2 : ∀ q, (s.lpd.get Lpd.reset q).clearing = false := by
    intro d; rw [hl]; simp only [live, Tbl.get]; repeat (first | rfl | split)
  simp only [State.clearsPage, h1, h2]
  split <;> rfl

theorem live_pageHeld {s : State} (hs : s.strat = live.strat) (hl : s.lpd = live.lpd) (hp : s.snap.pages = []) (p : Nat) :
    s.pageHeld p = false := by
  simp [State.pageHeld, Snapshot.holds, hp, live_clearsPage hs hl p, Tbl.find]

/-- Spindle 0 is at the instruction `i`, and is `x` otherwise; its local memory holds `loc` from address 0 on. -/
def prog (i : SpInstr) (x : Spindle := runner) (loc : Bytes := []) : State :=
  { live with
    sp := [(0, x)], mem := Tbl.ofRun 0 (localBase 0) loc ++ Tbl.ofRun 0 (poolBase 0) (leBytes 8 (encodeSp i).toNat) }

/-- The same as a test. -/
def isAt (s : State) (n : Nat) (i : SpInstr) : Bool :=
  s.mayIssue n && (match s.fetch n with | .ok w => decodeSp w == some i | .error _ => false)

theorem issues_of {s : State} {n : Nat} {i : SpInstr} (h : isAt s n i = true) : issues s n i := by
  simp only [isAt, Bool.and_eq_true] at h
  obtain ⟨h, hw⟩ := h
  revert hw
  cases hf : s.fetch n with
  | error e => simp
  | ok w => simpa using fun hw => ⟨h, w, hf, hw⟩

theorem prog_memOk (i : SpInstr) (x : Spindle) {loc : Bytes} (h : loc.length ≤ 2 ^ 18) : (prog i x loc).memOk = true := by
  refine Tbl.wf_append (k := poolBase 0) (Tbl.wf_ofRun _ _) (Tbl.wf_ofRun _ _) ?_ ?_
  · intro e he
    have := (Tbl.ofRun_keys he).2
    simp only [localBase, poolBase] at *
    omega
  · intro e he; exact (Tbl.ofRun_keys he).1

theorem prog_byte_local (i : SpInstr) (x : Spindle) (loc : Bytes) {k : Nat} (h : k < loc.length) (hl : loc.length ≤ 2 ^ 18) :
    (prog i x loc).byte (localBase 0 + k) = loc.getD k 0 := by
  show Tbl.get (_ ++ _) 0 _ = _
  rw [Tbl.get_append_left, Tbl.get_ofRun, if_pos (by omega)]
  · simp
  · intro e he
    have := (Tbl.ofRun_keys he).1
    simp only [localBase, poolBase] at *
    omega

theorem prog_localRead (i : SpInstr) (x : Spindle) {loc : Bytes} {n : Nat} (h : n ≤ loc.length) (hl : loc.length ≤ 2 ^ 18) :
    (prog i x loc).localRead 0 0 n = loc.take n := by
  rw [State.localRead, State.load_eq _ _ (prog_memOk i x hl)]
  apply List.ext_getElem (by simp; omega)
  intro k h1 h2
  simp only [List.length_map, List.length_range] at h1
  simp only [List.getElem_map, List.getElem_range, Nat.add_zero]
  rw [prog_byte_local i x loc (by omega) hl]
  simp [List.getElem?_eq_getElem (show k < loc.length by omega)]

theorem prog_fetch (i : SpInstr) (x : Spindle) {loc : Bytes} (h : loc.length ≤ 2 ^ 18) :
    (prog i x loc).load64 (poolBase 0) = (prog i x).load64 (poolBase 0) := by
  simp only [State.load64]
  rw [State.load_eq _ _ (prog_memOk i x h), State.load_eq _ _ (prog_memOk i x (loc := []) (by simp))]
  congr 2
  apply List.map_congr_left
  intro k _
  show Tbl.get (_ ++ _) 0 _ = Tbl.get (_ ++ _) 0 _
  rw [Tbl.get_append (poolBase 0) _ (by omega), Tbl.get_append (poolBase 0) _ (by omega)]
  · intro e he; simp [Tbl.ofRun] at he
  · intro e he
    have := (Tbl.ofRun_keys he).2
    simp only [localBase, poolBase] at *
    omega

/-- What lies in local memory does not matter to the instruction. -/
theorem issues_loc {i : SpInstr} {x : Spindle} {loc : Bytes} (h : isAt (prog i x) 0 i = true) (hp : x.pc = 0) (hs : x.station = 1)
    (hl : loc.length ≤ 2 ^ 18) :
    issues (prog i x loc) 0 i := by
  have h0 := issues_of h
  obtain ⟨hm, w, hw, hd⟩ := h0
  refine ⟨hm, w, ?_, hd⟩
  rw [← hw]
  have hi : ∀ l, (prog i x l).imageOf 0 = some image := by
    intro l
    show (Tbl.find [(1, station)] x.station).map _ = _
    rw [hs]; rfl
  have e : ∀ l, State.fetch (prog i x l) 0 = .ok ((prog i x l).load64 (poolBase 0)) := by
    intro l
    unfold State.fetch
    rw [hi l]
    have hx : (prog i x l).spindle 0 = x := rfl
    simp only [hx, hp]
    rfl
  rw [e, e, prog_fetch i x hl]

/-- Spindle 0 with registers 1 and 2 set. -/
def with12 (a b : W64) : Spindle := { runner with regs := { Regs.zero with s := Tbl.set (Tbl.set [] 0 1 a) 0 2 b } }

/-- An answer compared, as a test. -/
def okIs {ε α : Type} [DecidableEq α] (r : Except ε α) (a : α) : Bool := match r with | .ok b => b == a | .error _ => false
def errIs {ε α : Type} [DecidableEq ε] (r : Except ε α) (e : ε) : Bool := match r with | .ok _ => false | .error f => f == e

theorem ok_of {ε α : Type} [DecidableEq α] {r : Except ε α} {a : α} (h : okIs r a = true) : r = .ok a := by
  cases r <;> simp_all [okIs]

theorem err_of {ε α : Type} [DecidableEq ε] {r : Except ε α} {e : ε} (h : errIs r e = true) : r = .error e := by
  cases r <;> simp_all [errIs]

def answers {ε α : Type} (r : Except ε α) : Bool := match r with | .ok _ => true | .error _ => false

theorem ok_exists {ε α : Type} {r : Except ε α} (h : answers r = true) : ∃ a, r = .ok a := by
  cases r <;> simp_all [answers]

/-- The plane a0 open. -/
def open0 : Spindle := { runner with a0 := { PlaneSt.free with isOpen := true } }

/-- The descriptor of a tile of zeros in format `f`, of tensor 7, and the tile. -/
def zeroDesc (f : Fmt) (axis : Nat) : Bytes := descBytes f.code axis ⟨7, 0, 0, 0, false, []⟩ 0 f.payloadLen 0
def zeroTile (f : Fmt) (axis : Nat) : Bytes := sealImage (zeroDesc f axis ++ zeros (0x180 + f.payloadLen))

theorem parse_append {a b : Bytes} (h : a.length = 64) : Desc.parse (a ++ b) = Desc.parse a := by
  have h1 : ((a ++ b).drop 32).take 16 = (a.drop 32).take 16 := by
    rw [List.drop_append_of_le_length (by omega), List.take_append_of_le_length (by simp; omega)]
  simp only [Desc.parse, h1]
  repeat rw [leAt_append (by omega)]

theorem zeroDesc_length (f : Fmt) (axis : Nat) : (zeroDesc f axis).length = 64 := by
  simp only [zeroDesc, descBytes, List.length_append, leBytes_length, zeros_length]
  split <;> simp [fitBytes]

theorem parse_zeroDesc (f : Fmt) (axis : Nat) (h : axis < 2) :
    Desc.parse (zeroDesc f axis) = ⟨f.code, axis, false, 0, 1, 7, 0, 0, 0, f.payloadLen, 0, 0, zeros 16⟩ := by
  obtain rfl | rfl : axis = 0 ∨ axis = 1 := by omega
  all_goals cases f <;> decide +kernel

theorem zeroTile_length (f : Fmt) (axis : Nat) : (zeroTile f axis).length = 0x1C0 + f.payloadLen := by
  have h := zeroDesc_length f axis
  rw [zeroTile, sealImage_length (by simp [h]; omega)]
  simp [h]; omega

theorem parse_zeroTile (f : Fmt) (axis : Nat) (h : axis < 2) :
    ∃ c, Desc.parse (zeroTile f axis) = ⟨f.code, axis, false, 0, 1, 7, 0, 0, 0, f.payloadLen, 0, c, zeros 16⟩ := by
  have hl := zeroDesc_length f axis
  exact ⟨_, by rw [zeroTile, parse_sealImage (by simp [hl]; omega), parse_append hl, parse_zeroDesc f axis h]⟩

theorem checkHead_zeroTile (f : Fmt) (axis : Nat) (hf : f ≠ .n4b) (hx : axis < 2) :
    checkHead (zeroTile f axis) = .ok (Desc.parse (zeroTile f axis)) := by
  have h := zeroDesc_length f axis
  have hp := parse_zeroDesc f axis hx
  have hl : (zeroDesc f axis ++ zeros (0x180 + f.payloadLen)).length = 0x1C0 + f.payloadLen := by simp [h]; omega
  have hp' := (parse_append (b := zeros (0x180 + f.payloadLen)) h).trans hp
  refine checkHead_sealImage (by omega) ?_ (by rw [hp']) ⟨f, ?_, hf, by rw [hp'], by rw [hp']⟩ (by rw [hp']) (by rw [hp'])
  · rw [hp', hl]
    have : listedLens.contains f.payloadLen = true := by cases f <;> decide
    simp only [Desc.length, this, Bool.true_and]
    rfl
  · rw [hp']
    show Fmt.ofCode f.code = some f
    cases f <;> decide

theorem drop_zeroTile (f : Fmt) (axis : Nat) : (zeroTile f axis).drop 64 = zeros (0x180 + f.payloadLen) := by
  have h := zeroDesc_length f axis
  rw [zeroTile, sealImage_drop (by simp [h]; omega) (by omega), List.drop_append, List.drop_eq_nil_of_le (by omega), h]
  simp

theorem zeros_getD (n b : Nat) : ((zeros n).map (·.toNat)).toArray.getD b 0 = 0 := by
  simp only [zeros, List.map_replicate, Array.getD_eq_getD_getElem?, List.getElem?_toArray, List.getElem?_replicate]
  split <;> rfl

/-- A tile of zeros passes the checks at use of any operation that accepts its format and axis. -/
theorem zeroTile_ok (f : Fmt) (axis : Nat) (accept : Desc → Option W16) (hf : f ≠ .n4b) (hx : axis < 2)
    (ha : ∀ c, accept ⟨f.code, axis, false, 0, 1, 7, 0, 0, 0, f.payloadLen, 0, c, zeros 16⟩ = none) :
    ∃ t, checkTile (zeroTile f axis) accept = .ok t ∧ t.desc.tensor = 7 ∧ t.desc.col = 0 ∧ t.fmt = f
      ∧ t.pay = (zeros f.payloadLen).toArray := by
  obtain ⟨c, hc⟩ := parse_zeroTile f axis hx
  have hexp : ((zeroTile f axis).drop 64).take 128 = zeros 128 := by
    rw [drop_zeroTile, zeros, List.take_replicate]
    rw [Nat.min_eq_left (by omega)]; rfl
  have hcode : Fmt.ofCode f.code = some f := by cases f <;> rfl
  have hpay : ((zeroTile f axis).drop 0x1C0).take f.payloadLen = zeros f.payloadLen := by
    rw [show (0x1C0 : Nat) = 64 + 0x180 by rfl, ← List.drop_drop, drop_zeroTile, zeros, List.drop_replicate, List.take_replicate]
    rw [show min f.payloadLen (0x180 + f.payloadLen - 0x180) = f.payloadLen by omega]
    rfl
  unfold checkTile
  simp only [checkHead_zeroTile f axis hf hx, hc, ha c, hcode, hexp, hpay]
  by_cases h32 : f = .f32
  · simp [h32]
  · have h1 : (f == Fmt.f32) = false := by simp [h32]
    have hne : ∀ b : Nat, (((zeros 128).map (fun x : Byte => x.toNat)).toArray.getD b 0 == 255) = false := by
      intro b; rw [zeros_getD]; rfl
    have hfind : (List.range 128).find? (fun b => ((zeros 128).map (fun x : Byte => x.toNat)).toArray.getD b 0 == 255) = none := by
      rw [List.find?_eq_none]; intro b _; rw [hne]; simp
    simp only [h1, hfind, Bool.false_eq_true, if_false]
    split
    · rename_i hn
      have hside : ∀ (t : Tile) (i : Nat), t.exps = ((zeros 128).map (fun x : Byte => x.toNat)).toArray → t.isEscape i = false := by
        intro t i h; simp only [Tile.isEscape, h, zeros_getD]; simp
      have hno : ∀ t : Tile, t.exps = ((zeros 128).map (fun x : Byte => x.toNat)).toArray → sideBad t [] = none := by
        intro t h
        have : (List.range 4096).filter t.isEscape = [] := by
          rw [List.filter_eq_nil_iff]; intro i _; rw [hside t i h]; simp
        simp [sideBad, this, ascending]
      have hent : sideEntries (zeroTile f axis) ⟨f.code, axis, false, 0, 1, 7, 0, 0, 0, f.payloadLen, 0, c, zeros 16⟩ = [] := rfl
      rw [hent, hno _ rfl]
      exact ⟨_, rfl, rfl, rfl, rfl, rfl⟩
    · exact ⟨_, rfl, rfl, rfl, rfl, rfl⟩

/-- Every element of it reads 0. -/
theorem zero_code {t : Tile} {n : Nat} (h : t.pay = (zeros n).toArray) (q : Nat) : t.code q = 0 := by
  have hz : ∀ b, t.pay.getD b 0 = 0 := by
    intro b
    rw [h]
    simp only [zeros, Array.getD_eq_getD_getElem?, List.getElem?_toArray, List.getElem?_replicate]
    split <;> rfl
  simp only [Tile.code, payCode, hz, field]
  simp

/-- An image at local address 0, read back. -/
theorem prog_image_of (i : SpInstr) (x : Spindle) {loc : Bytes} (h64 : 64 ≤ loc.length) (hm : loc.length ≤ 2 ^ 18)
    (hd : (Desc.parse loc).length = some loc.length) : (prog i x loc).localImage 0 0 = loc := by
  have hp : Desc.parse (loc.take 64) = Desc.parse loc := by
    have := parse_append (a := loc.take 64) (b := loc.drop 64) (by simp; omega)
    rw [List.take_append_drop] at this
    exact this.symm
  unfold State.localImage
  simp only [prog_localRead i x h64 hm, hp, hd, Option.getD_some]
  rw [Nat.min_eq_right (by omega), prog_localRead i x (by omega) (by omega), List.take_length]

theorem length_zeroTile (f : Fmt) (axis : Nat) (h : axis < 2) :
    (Desc.parse (zeroTile f axis)).length = some (zeroTile f axis).length := by
  obtain ⟨c, hc⟩ := parse_zeroTile f axis h
  have : listedLens.contains f.payloadLen = true := by cases f <;> decide
  rw [hc, zeroTile_length]
  simp only [Desc.length, this, Bool.true_and]
  rfl

theorem prog_image (i : SpInstr) (x : Spindle) (f : Fmt) (axis : Nat) (h : axis < 2) :
    (prog i x (zeroTile f axis)).localImage 0 0 = zeroTile f axis := by
  have hl := zeroTile_length f axis
  have hp : f.payloadLen ≤ 16384 := by cases f <;> decide
  exact prog_image_of i x (by omega) (by omega) (length_zeroTile f axis h)

/-- A weight block of zeros. -/
def zeroBlock : WBlock := ⟨0, .n8, List.replicate 64 0, List.replicate 2048 0, []⟩

/-- A transfer tile of zeros with both halves VALID. -/
def zeroXfHead : Bytes := descBytes 0x30 0 ⟨7, 0, 0, 0, false, []⟩ 0 98304 0 ++ zeros 12 ++ [3] ++ zeros 27
def zeroXf : Bytes := sealImage (zeroXfHead ++ zeros (98752 - 104))

theorem zeroXf_length : zeroXf.length = 98752 := by
  have h : zeroXfHead.length = 104 := by decide
  rw [zeroXf, sealImage_length (by simp [h])]
  simp [h]

theorem parse_zeroXf : ∃ c, Desc.parse zeroXf = ⟨0x30, 0, false, 0, 1, 7, 0, 0, 0, 98304, 0, c, zeros 16⟩ := by
  have h : zeroXfHead.length = 104 := by decide
  have e : zeroXfHead ++ zeros (98752 - 104) = zeroXfHead.take 64 ++ (zeroXfHead.drop 64 ++ zeros (98752 - 104)) := by
    rw [← List.append_assoc, List.take_append_drop]
  have hp : Desc.parse (zeroXfHead.take 64) = ⟨0x30, 0, false, 0, 1, 7, 0, 0, 0, 98304, 0, 0, zeros 16⟩ := by decide +kernel
  exact ⟨_, by rw [zeroXf, parse_sealImage (by simp [h]), e, parse_append (by decide), hp]⟩

/-- It passes its checks at use, and its second half has no passes behind it. -/
theorem zeroXf_ok : ∃ d hs h, checkXf zeroXf (some 1) = .ok (d, hs) ∧ hs.getD 1 none = some h ∧ h.passes = 0 := by
  have h : zeroXfHead.length = 104 := by decide
  obtain ⟨c, hc⟩ := parse_zeroXf
  have e : zeroXfHead ++ zeros (98752 - 104) = zeroXfHead.take 64 ++ (zeroXfHead.drop 64 ++ zeros (98752 - 104)) := by
    rw [← List.append_assoc, List.take_append_drop]
  have hp : Desc.parse (zeroXfHead ++ zeros (98752 - 104)) = ⟨0x30, 0, false, 0, 1, 7, 0, 0, 0, 98304, 0, 0, zeros 16⟩ := by
    rw [e, parse_append (by decide)]; decide +kernel
  have hl : (zeroXfHead ++ zeros (98752 - 104)).length = 98752 := by simp [h]
  have hd : checkHead zeroXf = .ok (Desc.parse zeroXf) := by
    refine checkHead_sealXf (by omega) ?_ (by rw [hp]) (by rw [hp]) (by rw [hp]) (by rw [hp]) (by rw [hp]) (by rw [hp])
    rw [hp, hl]; decide
  have at_ : ∀ o n, 28 ≤ o → o + n ≤ 104 → leAt zeroXf o n = leAt zeroXfHead o n := by
    intro o n h1 h2
    rw [zeroXf, sealImage_leAt (by omega) (.inr h1), leAt_append (by omega)]
  have hflags : leAt zeroXf 0x4C 1 = 3 := by rw [at_ _ _ (by omega) (by omega)]; decide
  have hpass : leAt zeroXf 0x54 4 = 0 := by rw [at_ _ _ (by omega) (by omega)]; decide
  obtain ⟨hs, x, h1, h2, h3⟩ := checkXf_some (k := 1) hd (by rw [hc]) (by decide) (by rw [hflags]; decide)
  exact ⟨_, hs, x, h1, h2, h3.trans hpass⟩

/-- A transfer tile of zeros, read back from local memory. -/
theorem prog_xf (i : SpInstr) (x : Spindle) : (prog i x zeroXf).localImage 0 0 = zeroXf := by
  obtain ⟨c, hc⟩ := parse_zeroXf
  have hl := zeroXf_length
  have hk : listedLens.contains 98304 = true := by decide
  refine prog_image_of i x (by omega) (by omega) ?_
  rw [hl]
  simp only [hc, Desc.length, hk, Bool.true_and]
  rfl

/-! ### Spindle instructions -/

theorem wit_scalar_registers :
    issues (prog (.alu .add 3 1 2)) 0 (.alu .add 3 1 2) ∧ issues (prog (.aluImm .sltu 3 1 (-1))) 0 (.aluImm .sltu 3 1 (-1))
      ∧ issues (prog (.li 15 (-1))) 0 (.li 15 (-1)) ∧ issues (prog (.movs 3 4)) 0 (.movs 3 4) ∧ issues (prog (.jal 1 (-1))) 0 (.jal 1 (-1))
      ∧ issues (prog (.jr 0 1)) 0 (.jr 0 1) ∧ issues (prog (.branch .geu 1 2 (-1))) 0 (.branch .geu 1 2 (-1)) :=
  ⟨issues_of (by decide), issues_of (by decide), issues_of (by decide), issues_of (by decide), issues_of (by decide),
    issues_of (by decide), issues_of (by decide)⟩

theorem wit_vectors :
    issues (prog (.vf .cmpLe 1 2 3 0 ⟨true, 7⟩)) 0 (.vf .cmpLe 1 2 3 0 ⟨true, 7⟩)
      ∧ issues (prog (.vf .fma 4 1 2 3 ⟨false, 0⟩)) 0 (.vf .fma 4 1 2 3 ⟨false, 0⟩)
      ∧ issues (prog (.vrsum 1 2 ⟨false, 0⟩)) 0 (.vrsum 1 2 ⟨false, 0⟩) ∧ issues (prog (.vi .mulh 1 2 3 ⟨true, 1⟩)) 0 (.vi .mulh 1 2 3 ⟨true, 1⟩)
      ∧ issues (prog (.viCmp .ltu 1 2 3 ⟨true, 1⟩)) 0 (.viCmp .ltu 1 2 3 ⟨true, 1⟩)
      ∧ issues (prog (.mask .not 7 1 0 ⟨true, 1⟩)) 0 (.mask .not 7 1 0 ⟨true, 1⟩) ∧ issues (prog (.mpop 1 7 ⟨false, 0⟩)) 0 (.mpop 1 7 ⟨false, 0⟩)
      ∧ issues (prog (.vbcast 1 2 ⟨true, 1⟩)) 0 (.vbcast 1 2 ⟨true, 1⟩) ∧ issues (prog (.vext 1 2 3 ⟨false, 0⟩)) 0 (.vext 1 2 3 ⟨false, 0⟩)
      ∧ issues (prog (.vperm 1 2 3 ⟨true, 1⟩)) 0 (.vperm 1 2 3 ⟨true, 1⟩) ∧ issues (prog (.vsel 1 2 3 7 ⟨true, 1⟩)) 0 (.vsel 1 2 3 7 ⟨true, 1⟩) :=
  ⟨issues_of (by decide), issues_of (by decide), issues_of (by decide), issues_of (by decide), issues_of (by decide),
    issues_of (by decide), issues_of (by decide), issues_of (by decide), issues_of (by decide), issues_of (by decide),
    issues_of (by decide)⟩

theorem wit_curves :
    issues (prog (.curve .silu false 1 2 ⟨true, 0⟩)) 0 (.curve .silu false 1 2 ⟨true, 0⟩)
      ∧ issues (prog (.curve .silu true 1 2 ⟨true, 0⟩)) 0 (.curve .silu true 1 2 ⟨true, 0⟩)
      ∧ issues (prog (.gumbel 1 2 ⟨true, 0⟩)) 0 (.gumbel 1 2 ⟨true, 0⟩) :=
  ⟨issues_of (by decide), issues_of (by decide), issues_of (by decide)⟩

theorem wit_readback : (with12 7 5).regsOk = true ∧ Spindle.regsOk { runner with deferred := true } = true := by decide

/-- The last aligned places of local memory, and the last 128 bytes. -/
theorem wit_local_loads :
    issues (prog (.ld .b64 3 1 (-7)) (with12 0x3FFFF 0)) 0 (.ld .b64 3 1 (-7)) ∧ localAddr (0x3FFF8 : W64) 0 8 = .ok 0x3FFF8
      ∧ localAddr ((with12 0x3FFFF 0).s 1) (BitVec.toInt (-7 : BitVec 38)) 8 = .ok 0x3FFF8
      ∧ issues (prog (.vld 3 1 (-128)) (with12 0x3FF80 0)) 0 (.vld 3 1 (-128))
      ∧ localAddr ((with12 0x3FF80 0).s 1) (BitVec.toInt (-128 : BitVec 28)) 128 = .ok 0x3FF00 :=
  ⟨issues_of (by decide), ok_of (by decide), ok_of (by decide), issues_of (by decide), ok_of (by decide)⟩

theorem wit_local_stores :
    (prog (.st .b64 2 1 0) (with12 0x3FFF8 5)).memOk = true ∧ issues (prog (.st .b64 2 1 0) (with12 0x3FFF8 5)) 0 (.st .b64 2 1 0)
      ∧ localAddr ((with12 0x3FFF8 5).s 1) (BitVec.toInt (0 : BitVec 38)) 8 = .ok 0x3FFF8 ∧ (with12 0x3FFF8 5).owns .core 0x3FFF8 8 = true
      ∧ issues (prog (.vst 2 1 0) (with12 128 0)) 0 (.vst 2 1 0) ∧ (with12 128 0).owns .core 128 (bytesOfLanes ((with12 128 0).v 2)).length = true
      ∧ issues (prog (.atom .addI64 3 1 2) (with12 8 1)) 0 (.atom .addI64 3 1 2) ∧ localAddr ((with12 8 1).s 1) 0 8 = .ok 8 :=
  ⟨by decide, issues_of (by decide), ok_of (by decide), by decide, issues_of (by decide), by decide +kernel, issues_of (by decide),
    ok_of (by decide)⟩

/-- One byte past the end, an odd address, and a bank of the streaming engine. -/
theorem wit_local_stops :
    issues (prog (.ld .b16 3 1 0) (with12 0x40000 0)) 0 (.ld .b16 3 1 0) ∧ localAddr ((with12 0x40000 0).s 1) 0 2 = .error 0x0305
      ∧ localAddr (1 : W64) 0 2 = .error 0x0306 ∧ localAddr (0 : W64) (-2) 2 = .error 0x0305
      ∧ issues (prog (.st .b16 3 1 0) { with12 1 0 with banks := [(0, ⟨.stream, false, false⟩)] }) 0 (.st .b16 3 1 0)
      ∧ Spindle.owns { with12 0 0 with banks := [(0, ⟨.stream, false, false⟩)] } .core 0 2 = false :=
  ⟨issues_of (by decide), err_of (by decide), err_of (by decide), err_of (by decide), issues_of (by decide), by decide⟩

/-- The last words of a pool below its exchange bank. -/
theorem wit_remote_pool :
    let a : W64 := BitVec.ofNat 64 (exchangeBase 0 - 8)
    (prog (.stD .b64 1 2 0) (with12 a 5)).memOk = true ∧ regionOf (exchangeBase 0 - 8) = .pool 0 ∧ exchangeBase 0 - 8 < exchangeBase 0
      ∧ issues (prog (.stD .b64 1 2 0) (with12 a 5)) 0 (.stD .b64 1 2 0)
      ∧ (prog (.stD .b64 1 2 0) (with12 a 5)).remoteAddr ((with12 a 5).s 1) 0 8 true = .ok (exchangeBase 0 - 8)
      ∧ issues (prog (.ldD .u32 3 1 0) (with12 a 5)) 0 (.ldD .u32 3 1 0)
      ∧ (prog (.ldD .u32 3 1 0) (with12 a 5)).remoteAddr ((with12 a 5).s 1) 0 4 false = .ok (exchangeBase 0 - 8)
      ∧ issues (prog (.atomD .swp64 3 1 2 0) (with12 a 5)) 0 (.atomD .swp64 3 1 2 0)
      ∧ (prog (.atomD .swp64 3 1 2 0) (with12 a 5)).remoteAddr ((with12 a 5).s 1) 0 8 true = .ok (exchangeBase 0 - 8) :=
  ⟨by decide, by decide, by decide, issues_of (by decide), ok_of (by decide), issues_of (by decide), ok_of (by decide),
    issues_of (by decide), ok_of (by decide)⟩


/-- Another spindle's local memory and the spindle's own, in a bank that admits each access. -/
theorem wit_remote_local :
    let own : Spindle := with12 (BitVec.ofNat 64 (localBase 0 + 0x100)) 5
    let far : Spindle := with12 (BitVec.ofNat 64 (localBase 7 + 0x100)) 5
    let y : Spindle := { Spindle.reset with banks := [(0, ⟨.remote, false, false⟩)] }
    let s (i : SpInstr) (x : Spindle) : State := { prog i x with sp := [(0, x), (7, y)] }
    (∀ x ∈ [own, far], ∀ i ∈ [SpInstr.ldD .u32 3 1 0, .stD .b64 1 2 0, .atomD .swp64 3 1 2 0],
      (s i x).memOk = true ∧ isAt (s i x) 0 i = true
        ∧ okIs ((s i x).remoteAddr (x.s 1) 0 8 true) (if x = own then localBase 0 + 0x100 else localBase 7 + 0x100) = true
        ∧ okIs ((s i x).remoteAddr (x.s 1) 0 4 false) (if x = own then localBase 0 + 0x100 else localBase 7 + 0x100) = true) ∧
    regionOf (localBase 0 + 0x100) = .locals 0 ∧ regionOf (localBase 7 + 0x100) = .locals 7 ∧ y.foreignRead .remote 0x100 4 = true
      ∧ y.foreignWrite .remote 0x100 8 = true
      ∧ Spindle.ownWrite { own with banks := [(0, ⟨.remote, false, false⟩)] } .remote 0x100 8 = true
      ∧ Spindle.owns { own with banks := [(0, ⟨.remote, false, false⟩)] } .remote 0x100 8 = true := by
  decide +kernel

/-- A word of the exchange bank of skein 1, which spindle 0 reaches through port 1; before its access came none, or one of spindle 64 through
port 0: a load into a register, a store, or a read of the streaming engine. -/
theorem wit_exchange :
    let p := exchangeBase 1 + 8
    let x := with12 (BitVec.ofNat 64 p) 5
    let load : XbAcc := ⟨64, false, 0, p / 8, 1, false, false, .reg .b64 3⟩
    let engine : XbAcc := ⟨64, true, 0, p / 8, 1, false, false, .image 0x100⟩
    let s (last : Option XbAcc) (i : SpInstr) : State :=
      { prog i x with sk := [(0, { Skein.reset with power := .ready }), (1, { Skein.reset with power := .ready, xbLast := last })] }
    (∀ last ∈ [none, some load, some { load with write := true }, some engine],
      ∀ i ∈ [SpInstr.ldD .b64 3 1 0, .stD .b64 1 2 0, .atomD .swp64 3 1 2 0],
      (s last i).memOk = true ∧ isAt (s last i) 0 i = true ∧ okIs ((s last i).remoteAddr (x.s 1) 0 8 true) p = true
        ∧ okIs ((s last i).remoteAddr (x.s 1) 0 8 false) p = true ∧ ((s last i).skein 1).xbLast = last) ∧
    regionOf p = .pool 1 ∧ exchangeBase 1 ≤ p ∧ xbPort 0 1 = 1 ∧
    (let st : XbAcc := ⟨0, false, 1, p / 8, wordsOf p 8, true, false, .none⟩
     (xbCollide none true st).prevTorn = false ∧ (xbCollide (some load) false st).prevTorn = false ∧ (load.shared st).2 ≠ 0
      ∧ (engine.shared st).2 ≠ 0 ∧ load.spindle ≠ 0 ∧ 0x100 + 8 * engine.words ≤ 2 ^ 18) ∧
    (xbCollide (some { load with write := true }) true ⟨0, false, 1, p / 8, 1, false, false, .reg .b64 3⟩).torn = true := by
  decide +kernel

/-- Every local access past the end and off its alignment, and a bank of the streaming engine for the vector store and the atomic. -/
theorem wit_local_stops_all :
    let out := with12 0x40000 0
    let st (v : W64) : Spindle := { with12 v 0 with banks := [(0, ⟨.stream, false, false⟩)] }
    (∀ i ∈ [SpInstr.ld .b64 3 1 0, .st .b64 3 1 0, .vld 3 1 0, .vst 3 1 0, .atom .addI64 3 1 2],
      isAt (prog i out) 0 i = true ∧ isAt (prog i (st 0)) 0 i = true) ∧
    (∀ k ∈ [8, 128], localAddr (out.s 1) 0 k = .error 0x0305 ∧ localAddr ((with12 4 0).s 1) 0 k = .error 0x0306
      ∧ localAddr ((st 0).s 1) 0 k = .ok 0 ∧ (st 0).owns .core 0 k = false) ∧ (bytesOfLanes ((st 0).v 3)).length = 128 ∧
    (localAddr (0x3FFFF : W64) 1 1 = .error 0x0305 ∧ localAddr (0x3FFFF : W64) 0 1 = .ok 0x3FFFF ∧ localAddr (0x40000 : W64) (-1) 1 = .error 0x0305
      ∧ localAddr (2 : W64) 3 2 = .error 0x0306) := by
  refine ⟨by decide +kernel, fun k hk => ?_, by decide +kernel, err_of (by decide), ok_of (by decide), err_of (by decide), err_of (by decide)⟩
  simp only [List.mem_cons, List.not_mem_nil, or_false] at hk
  rcases hk with rfl | rfl <;> exact ⟨err_of (by decide), err_of (by decide), ok_of (by decide), by decide⟩

/-- Remote accesses to an address in no range, into stratum, into the station's code, off their alignment, and to local memories whose banks
refuse them. -/
theorem wit_remote_stops :
    let hole : W64 := 0xFFFFFFFFFFFFFFF8
    let y (n : Nat) : W64 := BitVec.ofNat 64 (localBase n)
    (∀ v ∈ [hole, 0x100000, y 0, y 7], issues (prog (.ldD .b64 3 1 0) (with12 v 5)) 0 (.ldD .b64 3 1 0)) ∧
    (∀ v ∈ [hole, 0x100000, y 0, y 7], issues (prog (.stD .b64 1 2 0) (with12 v 5)) 0 (.stD .b64 1 2 0)) ∧
    (∀ v ∈ [hole, 0x100000, y 0, y 7], issues (prog (.atomD .swp64 3 1 2 0) (with12 v 5)) 0 (.atomD .swp64 3 1 2 0)) ∧
    (∀ w, errIs (live.remoteAddr hole 0 8 w) 0x0302 = true ∧ errIs (live.remoteAddr 0x100000 0 8 w) 0x0305 = true
      ∧ okIs (live.remoteAddr (y 0) 0 8 w) (localBase 0) = true ∧ okIs (live.remoteAddr (y 7) 0 8 w) (localBase 7) = true
      ∧ errIs (live.remoteAddr (y 0 + 4) 0 8 w) 0x0306 = true) ∧
    (regionOf hole.toNat = .unlisted ∧ regionOf 0x100000 = .stratum 0 ∧ regionOf (localBase 0) = .locals 0 ∧ regionOf (localBase 7) = .locals 7
      ∧ regionOf (poolBase 0) = .pool 0 ∧ live.codeAt 0 (poolBase 0 - poolBase 0) 8 = true ∧ live.codeAt 0 (poolBase 0 + 64 - poolBase 0) 8 = false) ∧
    (∀ i x v w, (prog i x).remoteAddr v 0 8 w = live.remoteAddr v 0 8 w) ∧
    (runner.foreignRead .remote 0 8 = false ∧ runner.foreignWrite .remote 0 8 = false ∧ runner.owns .remote 0 8 = false
      ∧ Spindle.ownWrite { runner with banks := [(0, ⟨.stream, false, false⟩)] } .remote 0 8 = false) := by
  refine ⟨fun v h => ?_, fun v h => ?_, fun v h => ?_, by decide +kernel, by decide +kernel, fun _ _ _ _ => rfl, by decide⟩ <;>
    (simp only [List.mem_cons, List.not_mem_nil, or_false] at h; rcases h with rfl | rfl | rfl | rfl <;> exact issues_of (by decide))
/-! ### The arrays and the planes -/

/-- A tile of zeros in local memory that an array accepts. -/
theorem array_tile (i : SpInstr) (x : Spindle) (f : Fmt) (axis : Nat) (hf : f ≠ .n4b) (hx : axis < 2) :
    ∃ t, checkTile ((prog i x (zeroTile f axis)).localImage 0 0) (acceptArray f axis) = .ok t := by
  rw [prog_image i x f axis hx]
  obtain ⟨t, h, _⟩ := zeroTile_ok f axis (acceptArray f axis) hf hx (by
    intro c
    obtain rfl | rfl : axis = 0 ∨ axis = 1 := by omega
    all_goals simp [acceptArray])
  exact ⟨t, h⟩

theorem wit_weight_loads :
    (let s := prog (.fmmLdw .n8 1 true) runner (zeroTile .n8 0)
     issues s 0 (.fmmLdw .n8 1 true) ∧ localAddr ((s.spindle 0).s 1) 0 64 = .ok 0 ∧ (s.spindle 0).fwd.shadow = none
      ∧ (s.spindle 0).buffered .fwd < 4 ∧ ∃ t, checkTile (s.localImage 0 0) (acceptArray .n8 0) = .ok t) ∧
    (let s := prog (.bmmLdb .n6 1 false true) runner (zeroTile .n6 1)
     issues s 0 (.bmmLdb .n6 1 false true) ∧ (s.spindle 0).bwd.shadow = none
      ∧ (s.spindle 0).buffered .bwd < 4 ∧ ∃ t, checkTile (s.localImage 0 0) (acceptArray .n6 (b2n true)) = .ok t) :=
  ⟨⟨issues_loc (by decide) rfl rfl (by rw [zeroTile_length]; decide), ok_of (by decide), rfl, by decide, array_tile _ _ _ _ (by decide) (by decide)⟩,
    issues_loc (by decide) rfl rfl (by rw [zeroTile_length]; decide), rfl, by decide, array_tile _ _ _ _ (by decide) (by decide)⟩

/-- The last pass under the limit, with a block that SWAP makes resident and with a resident one. -/
theorem wit_passes :
    let x : Spindle := { runner with a0 := { PlaneSt.free with isOpen := true, passes := 2 ^ 19 - 1 }, fwd := ⟨some zeroBlock, none⟩,
                                     bwd := ⟨none, some zeroBlock⟩ }
    (let s := prog (.fmm .t2 1 .a0 true true) x (zeroTile .t2 0)
     issues s 0 (.fmm .t2 1 .a0 true true) ∧ localAddr ((s.spindle 0).s 1) 0 64 = .ok 0 ∧ ((s.spindle 0).plane .a0).isOpen = true
      ∧ ((s.spindle 0).plane .a0).passes < 2 ^ 19 ∧ (s.spindle 0).buffered .fwd < 4 ∧ (s.spindle 0).fwd.shadow = some zeroBlock
      ∧ ∃ t, checkTile (s.localImage 0 0) (acceptArray .t2 0) = .ok t) ∧
    (let s := prog (.bmm .n4 1 .a0 false false false) x (zeroTile .n4 0)
     issues s 0 (.bmm .n4 1 .a0 false false false) ∧ (s.spindle 0).buffered .bwd < 4 ∧ (s.spindle 0).bwd.resident = some zeroBlock
      ∧ ∃ t, checkTile (s.localImage 0 0) (acceptArray .n4 (b2n false)) = .ok t) :=
  ⟨⟨issues_loc (by decide) rfl rfl (by rw [zeroTile_length]; decide), ok_of (by decide), rfl, by decide, by decide, rfl,
      array_tile _ _ _ _ (by decide) (by decide)⟩,
    issues_loc (by decide) rfl rfl (by rw [zeroTile_length]; decide), by decide, rfl, array_tile _ _ _ _ (by decide) (by decide)⟩

/-- A pass that retires, a weight load that does, and a list of one term whose count reaches the pass limit. -/
theorem wit_exact_terms :
    (let s := prog .endProg { open0 with passes := [⟨.fwd, some .a0, [⟨31, 63, ⟨1, 0⟩⟩]⟩] }
     (s.spindle 0).passes = ⟨.fwd, some .a0, [⟨31, 63, ⟨1, 0⟩⟩]⟩ :: [] ∧ s.jobLive = true ∧ s.paused = false) ∧
    (let s := prog .endProg { runner with passes := [⟨.fwd, none, []⟩] }
     (s.spindle 0).passes = ⟨.fwd, none, []⟩ :: [] ∧ s.jobLive = true ∧ s.paused = false) ∧
    (let s := prog (.escTerm 1 2 .a0) { with12 0 1 with a0 := { PlaneSt.free with isOpen := true, passes := 2 ^ 19 - 1 } } (zeros 16)
     issues s 0 (.escTerm 1 2 .a0) ∧ ((s.spindle 0).plane .a0).isOpen = true ∧ localAddr ((s.spindle 0).s 1) 0 1 = .ok 0
      ∧ ((s.spindle 0).s 2).toNat = 1 ∧ 0 + 16 * 1 ≤ 2 ^ 18 ∧ escListBad (s.localRead 0 0 16) 1 0 = none
      ∧ ((s.spindle 0).plane .a0).passes + (1 + 31) / 32 ≤ 2 ^ 19) :=
  ⟨⟨rfl, rfl, rfl⟩, ⟨rfl, rfl, rfl⟩, issues_of (by decide), rfl, ok_of (by decide), by decide, by decide, by decide, by decide⟩

theorem wit_plane_open :
    let r : TRef := ⟨0, false, 0, 0⟩
    (let s := prog (.accOpen .a0 1 2 true)
     issues s 0 (.accOpen .a0 1 2 true) ∧ ((s.spindle 0).plane .a0).isOpen = false ∧ s.refTracker 1 ((s.spindle 0).s 1) = .ok (r, tracker)
      ∧ r.epoch = tracker.epoch) ∧
    (issues (prog (.accClear .a0) open0) 0 (.accClear .a0) ∧ open0.a0.isOpen = true ∧ open0.planeBusy .a0 = false) ∧
    issues (prog (.accOpen .a0 1 2 false) open0) 0 (.accOpen .a0 1 2 false) ∧ issues (prog (.accClear .a1)) 0 (.accClear .a1) :=
  ⟨⟨issues_of (by decide), rfl, ok_of (by decide), rfl⟩, ⟨issues_of (by decide), rfl, rfl⟩, issues_of (by decide), issues_of (by decide)⟩

theorem wit_accAddx :
    let s := prog (.accAddx 1 .a0 true) open0 zeroXf
    issues s 0 (.accAddx 1 .a0 true) ∧ ((s.spindle 0).plane .a0).isOpen = true ∧ localAddr ((s.spindle 0).s 1) 0 64 = .ok 0
      ∧ ∃ d hs h, checkXf (s.localImage 0 0) (some (b2n true)) = .ok (d, hs) ∧ hs.getD (b2n true) none = some h
        ∧ ((s.spindle 0).plane .a0).passes + h.passes + 1 ≤ 2 ^ 19 := by
  refine ⟨issues_loc (by decide) rfl rfl (by rw [zeroXf_length]; decide), rfl, ok_of (by decide), ?_⟩
  rw [prog_xf]
  obtain ⟨d, hs, h, h1, h2, h3⟩ := zeroXf_ok
  exact ⟨d, hs, h, h1, h2, by rw [h3]; decide⟩

/-! ### Conversion and rounding -/

theorem owns_core (x : Spindle) (a n : Nat) (h : x.banks = []) : x.owns .core a n = true := by
  simp [Spindle.owns, Spindle.bank, h, Bank.core]

/-- The descriptor of the tile at local address 0 as a template. -/
theorem prog_template (i : SpInstr) (x : Spindle) (f : Fmt) :
    DescSeed.parse ((prog i x (zeroTile f 0)).localRead 0 0 64) = ⟨7, 0, 0, 0, false, zeros 16⟩ := by
  have hl := zeroTile_length f 0
  have hp : f.payloadLen ≤ 16384 := by cases f <;> decide
  obtain ⟨c, hc⟩ := parse_zeroTile f 0 (by decide)
  have h64 : Desc.parse ((zeroTile f 0).take 64) = Desc.parse (zeroTile f 0) := by
    have := parse_append (a := (zeroTile f 0).take 64) (b := (zeroTile f 0).drop 64) (by simp; omega)
    rw [List.take_append_drop] at this
    exact this.symm
  rw [prog_localRead i x (by omega) (by omega), DescSeed.parse, h64, hc]
  rfl

/-- CVT.N8.N4 from local address 0, which is its template too, to 0x4000. -/
theorem wit_convert :
    let x := with12 0x4000 0
    let i : SpInstr := .cvt .n8 .n4 1 0 0 0 .rne .none
    let s := prog i x (zeroTile .n4 0)
    let sd := DescSeed.parse (s.localRead 0 0 64)
    s.memOk = true ∧ issues s 0 i ∧ localAddr (x.s 1) 0 64 = .ok 0x4000 ∧ localAddr (x.s 0) 0 64 = .ok 0
      ∧ s.drawWords 0 .rne sd = .ok (fun _ => 0) ∧ s.tileTracker x.station (x.s 0) sd.tensor sd.col = .ok (⟨0, false, 0, 0⟩, tracker)
      ∧ tracker.read 0 = .values 127 0 false ∧ (∀ e : Enc, e.needsSpill (tracker.encCfg .n8 sd.book Mode.rne 127) = false)
      ∧ (∀ bs : Bytes, x.owns .core 0x4000 bs.length = true)
      ∧ ∃ t, checkTile (s.localImage 0 0) (acceptFmt .n4) = .ok t ∧ t.nonfinite = none := by
  have hl : (zeroTile .n4 0).length ≤ 2 ^ 18 := by rw [zeroTile_length]; decide
  refine ⟨prog_memOk _ _ hl, issues_loc (by decide) rfl rfl hl, ok_of (by decide), ok_of (by decide), rfl, ?_, by decide, ?_,
    fun bs => owns_core _ _ _ rfl, ?_⟩
  · rw [prog_template]; rfl
  · intro e; simp [Enc.needsSpill, Tracker.encCfg, tracker, Binding.none]
  · rw [prog_image _ _ _ _ (by decide)]
    obtain ⟨t, h, _, _, hf, _⟩ := zeroTile_ok .n4 0 (acceptFmt .n4) (by decide) (by decide) (fun c => rfl)
    exact ⟨t, h, by simp [Tile.nonfinite, hf]⟩

/-- ACC.RND of an overflowed plane, and of one that is not; both may be written. -/
theorem wit_round :
    let i : SpInstr := .accRnd .n8 3 1 0 (some .a0) false true .rne
    let x (full : Bool) : Spindle := { with12 0x4000 0 with a0 := { PlaneSt.free with isOpen := true, ovf := full, ovfTerms := b2n full } }
    let s (full : Bool) := prog i (x full) (zeroTile .n4 0)
    let sd := DescSeed.parse ((s false).localRead 0 0 64)
    (∀ full, (s full).memOk = true ∧ (x full).regsOk = true ∧ issues (s full) 0 i ∧ (x full).a0.isOpen = true
      ∧ (x full).planeBusy .a0 = false ∧ localAddr ((x full).s 1) 0 64 = .ok 0x4000 ∧ localAddr ((x full).s 0) 0 64 = .ok 0
      ∧ 0x4000 + 0x1C0 + Fmt.n8.payloadLen ≤ 2 ^ 18 ∧ roundRefused ((x full).assembly 0x4000) .n8 sd.book false true = none
      ∧ (s full).drawWords 0 .rne sd = .ok (fun _ => 0)) ∧
    ((x true).a0.overflowed = true ∧ (x true).a0.canRetry = true ∧ (x false).a0.overflowed = false) ∧
    ((s false).tileTracker 1 0 sd.tensor sd.col = .ok (⟨0, false, 0, 0⟩, tracker) ∧ tracker.read 0 = .values 127 0 false
      ∧ (∀ e : Enc, e.needsSpill (tracker.encCfg .n8 sd.book Mode.rne 127) = false)
      ∧ ∀ bs : Bytes, (x false).owns .core 0x4000 bs.length = true) := by
  have hl : (zeroTile .n4 0).length ≤ 2 ^ 18 := by rw [zeroTile_length]; decide
  refine ⟨fun full => ⟨prog_memOk _ _ hl, by cases full <;> decide, issues_loc (by cases full <;> decide) rfl rfl hl, rfl, rfl, ok_of (by cases full <;> decide),
    ok_of (by cases full <;> decide), by decide, rfl, rfl⟩, ⟨by decide, by decide, by decide⟩, ?_, by decide, ?_, fun bs => owns_core _ _ _ rfl⟩
  · rw [prog_template]; rfl
  · intro e; simp [Enc.needsSpill, Tracker.encCfg, tracker, Binding.none]

theorem wit_save :
    let x : Spindle := { with12 0 0x4000 with a0 := { PlaneSt.free with isOpen := true } }
    ∀ fin, let s := prog (.accSave 3 1 2 .a0 false fin) x
      s.memOk = true ∧ issues s 0 (.accSave 3 1 2 .a0 false fin) ∧ x.a0.isOpen = true ∧ x.planeBusy .a0 = false ∧ x.a0.overflowed = false
        ∧ localAddr (x.s 1) 0 64 = .ok 0 ∧ localAddr (x.s 2) 0 64 = .ok 0x4000 ∧ 0 + 98752 ≤ 2 ^ 18 ∧ x.assembly 0 = none
        ∧ (∀ bs : Bytes, x.owns .core 0 bs.length = true) ∧ x.owns .core (0 + 0x40) 24 = true ∧ x.owns .core (0 + 0x1C0) 49152 = true := by
  intro x fin
  exact ⟨by cases fin <;> decide, issues_of (by cases fin <;> decide), rfl, rfl, by decide, ok_of (by decide), ok_of (by decide), by decide, rfl,
    fun bs => owns_core _ _ _ rfl, owns_core _ _ _ rfl, owns_core _ _ _ rfl⟩

/-- A record of generation 0, the last place of the ring, and a record under way. -/
theorem wit_deferral :
    let x : Spindle := { with12 0x200 0 with ringCount := 1, ringGens := [0] }
    (let s := prog (.bmmDefer 1) x
     s.memOk = true ∧ s.imageOf 0 = some image ∧ issues s 0 (.bmmDefer 1) ∧ image.deferEntry.isSome = true
      ∧ localAddr ((s.spindle 0).s 1) 0 1 = .ok 0x200 ∧ 0x200 + 64 ≤ 2 ^ 18 ∧ s.genHeld (leAt (s.localRead 0 0x200 64) 0 2) = true) ∧ (1 : Nat) < image.deferDepth ∧
    (let s := prog .bmmDone { x with deferred := true, retPc := 16 }
     issues s 0 .bmmDone ∧ (s.spindle 0).deferred = true ∧ (s.spindle 0).a1.isOpen = false) :=
  ⟨⟨by decide, rfl, issues_of (by decide), rfl, ok_of (by decide), by decide, by decide⟩, by decide, issues_of (by decide), rfl, rfl⟩

/-- A record left: each instruction that runs it first, the ring full; and with none left. -/
theorem wit_records_first :
    let x : Spindle := { with12 5 10 with ringCount := 2, ringGens := [0, 0] }
    let y : Spindle := { with12 0x200 0 with ringCount := 2, ringGens := [0, 0] }
    (prog .bmmFlush x).imageOf 0 = some image ∧ image.deferEntry = some 8 ∧ x.deferred = false ∧ x.a1.isOpen = false ∧ x.ringCount ≠ 0
      ∧ issues (prog .bmmFlush x) 0 .bmmFlush ∧ issues (prog .endProg x) 0 .endProg ∧ x.a0.isOpen = false
      ∧ issues (prog (.bmmDefer 1) y) 0 (.bmmDefer 1) ∧ localAddr (y.s 1) 0 1 = .ok 0x200
      ∧ (prog (.bmmDefer 1) y).genHeld (leAt ((prog (.bmmDefer 1) y).localRead 0 0x200 64) 0 2) = true ∧ image.deferDepth ≤ y.ringCount
      ∧ issues (prog (.yieldK 1 2) x) 0 (.yieldK 1 2) ∧ (prog (.yieldK 1 2) x).declares 1 5 = true
      ∧ ((prog (.yieldK 1 2) x).knot 5).value.ult (x.s 2) = true
      ∧ issues (prog .bmmFlush runner) 0 .bmmFlush ∧ runner.ringCount = 0 :=
  ⟨rfl, rfl, rfl, rfl, by decide, issues_of (by decide), issues_of (by decide), rfl, issues_of (by decide), ok_of (by decide), by decide,
    by decide, issues_of (by decide), by decide, by decide, issues_of (by decide), rfl⟩

/-- The knot stands at 9, exactly the value asked for; the queue has closed. -/
theorem wit_yields :
    (prog (.yieldK 1 2) (with12 5 9)).mustDrain 0 = false ∧ issues (prog (.yieldK 1 2) (with12 5 9)) 0 (.yieldK 1 2)
      ∧ (prog (.yieldK 1 2) (with12 5 9)).declares 1 5 = true ∧ ((prog (.yieldK 1 2) (with12 5 9)).knot 5).trace = false
      ∧ ((with12 5 9).s 2).ule ((prog (.yieldK 1 2) (with12 5 9)).knot 5).value = true :=
  ⟨rfl, issues_of (by decide), by decide, rfl, by decide⟩

theorem wit_end :
    let s := prog .endProg { runner with spillHeld := 3, banks := [(2, ⟨.stream, false, false⟩)] }
    issues s 0 .endProg ∧ (s.spindle 0).a0.isOpen = false ∧ (s.spindle 0).a1.isOpen = false ∧ (s.spindle 0).deferred = false
      ∧ (s.runRecord 0).isNone = true ∧ (s.spindle 0).passes = [] ∧ s.station 1 = some station :=
  ⟨issues_of (by decide), rfl, rfl, rfl, by decide, rfl, rfl⟩


/-- A plane of zeros adds nothing to a side list. -/
theorem encodeBlock_zero {cfg : EncCfg} {axis : Nat} {vals : Nat → Dy} {word : Nat → Nat} (h : ∀ q, (vals q).isZero = true) (s : Enc) (b : Nat) :
    (encodeBlock cfg axis vals word s b).side = s.side := by
  unfold encodeBlock
  have he : (((List.range 32).map fun p => (p, vals (32 * b + p))).filter fun pv => !pv.2.isZero) = [] := by
    rw [List.filter_eq_nil_iff]
    intro e he
    obtain ⟨p, _, rfl⟩ := List.mem_map.1 he
    simp [h]
  simp [he]

theorem roundHalf_zero_side (f : Fmt) (hf : f ≠ .f32) (cfg : EncCfg) (p : PlaneSt) (hp : p.acc = []) (half : Nat) (word : Nat → Nat)
    (outliers : Nat) (spilling : Bool) (sat : List Nat) (lost : Nat) :
    (roundHalf f cfg p half word outliers spilling sat lost).enc.side = [] := by
  have hz : ∀ q, (p.valueAt half q).isZero = true := by
    intro q; simp only [PlaneSt.valueAt, hp, Tbl.get]; split <;> rfl
  have : ∀ (l : List Nat) (s : Enc), (l.foldl (encodeBlock cfg 0 (p.valueAt half) word) s).side = s.side := by
    intro l
    induction l with
    | nil => intro s; rfl
    | cons b l ih => intro s; rw [List.foldl_cons, ih, encodeBlock_zero hz]
  simp only [roundHalf, encodeBlocks, beq_iff_eq, hf, if_false]
  exact this _ _

/-- The image that ACC.RND with FIN makes of such a plane has a tile's length: at 0x4000 it ends inside local memory. -/
theorem wit_round_fin (cfg : EncCfg) (sd : DescSeed) (s : State) (word : Nat → Nat) :
    let h := roundHalf .n8 cfg open0.a0 0 word 0 false [] 0
    0x4000 + (s.finImage 0 0x4000 .n8 sd false none h.enc).length ≤ 2 ^ 18 := by
  intro h
  have hs : h.enc.side = [] := roundHalf_zero_side _ (by decide) _ _ rfl _ _ _ _ _ _
  simp only [State.finImage, Enc.image, hs, Bool.false_eq_true, if_false, buildImage_length]
  decide
/-! ### Queues and transfers -/

/-- Queue 7 from the station to itself, two slots of 8 KiB; `es` are its entries. -/
def queue (st : Nat) (es : List QEntry) : Queue :=
  { Queue.reset with
    decl := { QueueDecl.none with format := 4, producer := 1, consumer := 1, depth := 2, slotBytes := 8192, ringBase := 0x100000 }
    state := st, entries := es, nextId := 5 }
def entry : QEntry := ⟨4, .ring 1, 64, 0, [0], [0]⟩

def withQueue7 (s : State) (u : Queue) : State := { s with queues := [(7, u)] }

/-- The head touched. -/
def touched (s : State) : State := (s.touchHead 7).getD s
theorem touched_eq {s : State} (h : (s.touchHead 7).isSome = true) : s.touchHead 7 = some (touched s) := by
  simp [touched, Option.getD, Option.isSome] at *
  split at h <;> simp_all

theorem ownWrite_core (x : Spindle) (o : Owner) (a n : Nat) (h : x.banks = []) : x.ownWrite o a n = true := by
  simp [Spindle.ownWrite, Spindle.bank, h, Bank.core]

theorem load_congr {s t : State} (h : s.mem = t.mem) (a n : Nat) : s.load a n = t.load a n := by simp only [State.load, h]

/-- The device address of local memory 0, where the tile lies. -/
theorem prog_load (i : SpInstr) (x : Spindle) {loc : Bytes} {n : Nat} (h : n ≤ loc.length) (hl : loc.length ≤ 2 ^ 18) :
    (prog i x loc).load (localBase 0) n = loc.take n := prog_localRead i x h hl

/-- A tile of zeros that lies there arrives sound. -/
theorem sound_zeroTile {s : State} {a : Nat} {f : Fmt} {axis : Nat} (hf : f ≠ .n4b) (hx : axis < 2)
    (hu : s.uncorr a (zeroTile f axis).length = false) : arrivesSound s a (zeroTile f axis) := by
  refine ⟨hu, fun e he => ?_⟩
  rw [checkHead_zeroTile f axis hf hx] at he
  exact nomatch he

/-- A queue whose ring is the tile of N8 zeros in local memory 0. -/
def tileQueue : Queue :=
  { queue 1 [{ entry with slot := .ring 0, len := 0x1C0 + 4096 }] with
    decl := { (queue 1 []).decl with ringBase := localBase 0 } }

theorem wit_pull :
    let x := with12 7 0x10000
    let e : QEntry := { entry with slot := .ring 0, len := 0x1C0 + 4096 }
    let s (i : SpInstr) := withQueue7 (prog i x (zeroTile .n8 0)) tileQueue
    let i : SpInstr := .pull 3 1 2
    let z := withQueue7 (prog i x) { queue 3 [] with closed := [0] }
    (∀ j : SpInstr, (s j).memOk = true ∧ (s j).touchHead 7 = some (touched (s j)) ∧ quotaRoom (s j) 0
      ∧ (touched (s j)).queueNext 7 0 = some (e, 0)
      ∧ (let img := (touched (s j)).loadNew (((touched (s j)).queue 7).addr e.slot) e.len
         arrivesSound (touched (s j)) (((touched (s j)).queue 7).addr e.slot) img
          ∧ (touched (s j)).routeBusy (((touched (s j)).queue 7).addr e.slot) (localBase 0 + 0x10000) = false ∧ 0x10000 + img.length ≤ 2 ^ 18
          ∧ x.ownWrite .stream 0x10000 img.length = true)) ∧
    (x.s 1).toNat = 7 ∧ tileQueue.state ≠ 0 ∧ tileQueue.decl.consumer = x.station ∧ localAddr (x.s 2) 0 64 = .ok 0x10000
      ∧ issues (s i) 0 i ∧ issues (s (.pullH 3 1 2)) 0 (.pullH 3 1 2) ∧ x.held.length < 64
      ∧ z.touchHead 7 = some (touched z) ∧ (touched z).queueNext 7 0 = none ∧ (touched z).queueEnded 7 0 = true
      ∧ issues z 0 (.pull 3 1 2) ∧ station.copies = [] := by
  have hn : (zeroTile .n8 0).length = 0x1C0 + 4096 := zeroTile_length _ _
  have hl : (zeroTile .n8 0).length ≤ 2 ^ 18 := by omega
  intro x e s i z
  refine ⟨fun j => ?_, by decide, by decide, by decide, ok_of (by decide), issues_loc (by decide) rfl rfl hl,
    issues_loc (by decide) rfl rfl hl, by decide, touched_eq (by decide), by decide, by decide, issues_of (by decide), rfl⟩
  have hi : (touched (s j)).loadNew (((touched (s j)).queue 7).addr e.slot) e.len = zeroTile .n8 0 := by
    rw [show (touched (s j)).queue 7 = tileQueue from rfl, show tileQueue.addr e.slot = localBase 0 by decide,
      State.loadNew_eq_load _ _ rfl (by simp [live_clearsPage (s := touched (s j)) rfl rfl]),
      load_congr (s := touched (s j)) (t := prog j x (zeroTile .n8 0)) rfl, show e.len = 0x1C0 + 4096 from rfl, prog_load _ _ (by omega) (by omega), ← hn, List.take_length]
  refine ⟨prog_memOk j x hl, touched_eq rfl, .inr (by show 0 < 4; decide), rfl, ?_⟩
  simp only [hi]
  exact ⟨sound_zeroTile (by decide) (by decide) (by rw [hn]; rfl), rfl, by omega, ownWrite_core _ _ _ _ rfl⟩

theorem wit_queue_close :
    let x : Spindle := { with12 7 0 with held := [(7, 4)] }
    let s := withQueue7 (prog (.pullRel 1) x) (queue 1 [{ entry with toPull := [] }])
    let z := withQueue7 (prog (.pushClose 1) x) (queue 1 [entry])
    (issues s 0 (.pullRel 1) ∧ s.touchHead 7 = some (touched s) ∧ (s.queue 7).decl.consumer = x.station
      ∧ x.held.find? (fun h => h.1 == 7) = some (7, 4)) ∧
    (issues z 0 (.pushClose 1) ∧ (z.queue 7).decl.producer = x.station ∧ z.nsliver 1 = 1 ∧ (z.queue 7).state = 1) ∧
    (let w := withQueue7 (prog (.yieldQ 1) x) (queue 1 [entry])
     issues w 0 (.yieldQ 1) ∧ w.mustDrain 0 = false ∧ w.touchHead 7 = some (touched w) ∧ ((touched w).queueNext 7 0).isSome = true) :=
  ⟨⟨issues_of (by decide), touched_eq (by decide), by decide, by decide⟩, ⟨issues_of (by decide), by decide, by decide, by decide⟩,
    issues_of (by decide), rfl, touched_eq (by decide), by decide⟩

theorem imageOut_congr {s t : State} (h : s.mem = t.mem) (n a : Nat) : s.imageOut n a = t.imageOut n a := by
  have hl : s.localRead n = t.localRead n := by funext a k; simp only [State.localRead, State.load, h]
  unfold State.imageOut
  rw [hl]

theorem stored_zeroTile (f : Fmt) (axis : Nat) (h : axis < 2) : (Desc.parse (zeroTile f axis)).stored = (zeroTile f axis).length := by
  rw [Desc.stored, length_zeroTile f axis h, zeroTile_length]
  cases f <;> rfl

theorem prog_imageOut (i : SpInstr) (x : Spindle) (f : Fmt) (axis : Nat) (h : axis < 2) :
    (prog i x (zeroTile f axis)).imageOut 0 0 = .ok (zeroTile f axis) := by
  have hl := zeroTile_length f axis
  have hp : f.payloadLen ≤ 16384 := by cases f <;> decide
  have h64 : Desc.parse ((zeroTile f axis).take 64) = Desc.parse (zeroTile f axis) := by
    have := parse_append (a := (zeroTile f axis).take 64) (b := (zeroTile f axis).drop 64) (by simp; omega)
    rw [List.take_append_drop] at this
    exact this.symm
  unfold State.imageOut
  simp only [prog_localRead i x (loc := zeroTile f axis) (n := 64) (by omega) (by omega), h64, stored_zeroTile f axis h]
  rw [if_neg (by omega), prog_localRead i x (by omega) (by omega), List.take_length]

/-- An image of N8 zeros pushed into a queue with one slot free, and into a full one. -/
theorem wit_push :
    let x := with12 7 0
    let i : SpInstr := .push 3 1 2
    let full := queue 1 [entry, { entry with id := 3, slot := .ring 0 }]
    let s (u : Queue) := withQueue7 (prog i x (zeroTile .n8 0)) u
    (∀ u ∈ [queue 1 [entry], full], issues (s u) 0 i ∧ (s u).touchHead 7 = some (touched (s u))
      ∧ (touched (s u)).imageOut 0 0 = .ok (zeroTile .n8 0)) ∧
    (Desc.parse (zeroTile .n8 0)).format = 4 ∧ (zeroTile .n8 0).length ≤ 8192 ∧ localAddr (x.s 2) 0 64 = .ok 0
      ∧ (queue 1 [entry]).freeSlot = some (.ring 0) ∧ full.freeSlot = none ∧ full.waiting = [] ∧ quotaRoom (s full) 0 := by
  have hl : (zeroTile .n8 0).length ≤ 2 ^ 18 := by rw [zeroTile_length]; decide
  intro x i full s
  refine ⟨?_, ?_, by rw [zeroTile_length]; decide, ok_of (by decide), by decide, by decide, rfl, .inr ?_⟩
  · intro u hu
    have hi : issues (prog i x (zeroTile .n8 0)) 0 i := issues_loc (by decide) rfl rfl hl
    simp only [List.mem_cons, List.not_mem_nil, or_false] at hu
    refine ⟨hi, ?_, ?_⟩
    · apply touched_eq; rcases hu with rfl | rfl <;> rfl
    · rw [imageOut_congr (t := prog i x (zeroTile .n8 0)) (by rcases hu with rfl | rfl <;> rfl), prog_imageOut _ _ _ _ (by decide)]
  · obtain ⟨c, hc⟩ := parse_zeroTile .n8 0 (by decide)
    rw [hc]; rfl
  · show 0 < 4
    decide

/-- Its own local memory named by a device address. -/
def fromLocal : Spindle := with12 (BitVec.ofNat 64 (localBase 0)) 0x10000

theorem prog_loadNew (i : SpInstr) (x : Spindle) (loc : Bytes) (a n : Nat) : (prog i x loc).loadNew a n = (prog i x loc).load a n :=
  State.loadNew_eq_load a n rfl (by simp [live_clearsPage (s := prog i x loc) rfl rfl])

/-- A copied and a turned tile of N8 zeros from the spindle's own local memory, and an image pushed to the stratum. -/
theorem wit_device_transfers :
    (∀ i : SpInstr, let s := prog i fromLocal (zeroTile .n8 0)
      s.memOk = true ∧ quotaRoom s 0 ∧ s.routeBusy (localBase 0) (localBase 0 + 0x10000) = false ∧ localAddr (fromLocal.s 2) 0 64 = .ok 0x10000
      ∧ (Desc.parse (s.loadNew (localBase 0) 64)).stored = 0x1C0 + 4096
      ∧ s.deviceCheck (localBase 0) 64 false = none ∧ s.deviceCheck (localBase 0) (0x1C0 + 4096) false = none
      ∧ s.refusing 0 (localBase 0) 64 false = none ∧ s.refusing 0 (localBase 0) (0x1C0 + 4096) false = none
      ∧ arrivesSound s (localBase 0) (s.loadNew (localBase 0) (0x1C0 + 4096)) ∧ s.uncorr (localBase 0) (0x1C0 + 4096) = false
      ∧ fromLocal.ownWrite .stream 0x10000 (0x1C0 + 4096) = true
      ∧ ∃ t, checkTile (s.loadNew (localBase 0) (0x1C0 + 4096)) (acceptTurn .g16) = .ok t
        ∧ s.tileTracker 1 (fromLocal.s 0) t.desc.tensor t.desc.col = .ok (⟨0, false, 0, 0⟩, tracker)
        ∧ 0x10000 + (turnTile t .g16).image.length ≤ 2 ^ 18
        ∧ fromLocal.ownWrite .stream 0x10000 (turnTile t .g16).image.length = true) ∧
    (let s (i : SpInstr) := prog i fromLocal (zeroTile .n8 0)
     issues (s (.pullA none 3 1 2 0 false)) 0 (.pullA none 3 1 2 0 false)
      ∧ issues (s (.pullA (some .g16) 3 1 2 0 false)) 0 (.pullA (some .g16) 3 1 2 0 false)) ∧
    (let s := prog (.pushA 3 1 2) (with12 0x100000 0) (zeroTile .n8 0)
     issues s 0 (.pushA 3 1 2) ∧ s.imageOut 0 0 = .ok (zeroTile .n8 0) ∧ s.deviceCheck 0x100000 (zeroTile .n8 0).length true = none
      ∧ s.refusing 0 0x100000 (zeroTile .n8 0).length true = none ∧ s.routeBusy (localBase 0) 0x100000 = false ∧ localParts 0x100000 (zeroTile .n8 0).length = [] ∧ tearsNone s 0x100000) := by
  have hn : (zeroTile .n8 0).length = 0x1C0 + 4096 := zeroTile_length _ _
  refine ⟨fun i => ⟨prog_memOk i fromLocal (by omega), .inr (by show 0 < 4; decide), rfl, ok_of (by decide), ?_, by rfl, by rfl, by rfl, by rfl, ?_, by rfl, ownWrite_core _ _ _ _ rfl, ?_⟩,
    ⟨issues_loc (by decide) rfl rfl (by omega), issues_loc (by decide) rfl rfl (by omega)⟩,
    issues_loc (by decide) rfl rfl (by omega), prog_imageOut _ _ _ _ (by decide), ?_, ?_, rfl, by decide, ?_⟩
  · have h64 : Desc.parse ((zeroTile .n8 0).take 64) = Desc.parse (zeroTile .n8 0) := by
      have := parse_append (a := (zeroTile .n8 0).take 64) (b := (zeroTile .n8 0).drop 64) (by simp; omega)
      rw [List.take_append_drop] at this
      exact this.symm
    rw [prog_loadNew, prog_load _ _ (by omega) (by omega), h64, stored_zeroTile _ _ (by decide), hn]
  · rw [prog_loadNew, prog_load _ _ (by omega) (by omega), ← hn, List.take_length]
    exact sound_zeroTile (by decide) (by decide) rfl
  · rw [prog_loadNew, prog_load _ _ (by omega) (by omega), ← hn, List.take_length]
    obtain ⟨t, h, h7, h0, hf, _⟩ := zeroTile_ok .n8 0 (acceptTurn .g16) (by decide) (by decide) (fun c => rfl)
    refine ⟨t, h, by rw [h7, h0]; exact ok_of rfl, ?_, ownWrite_core _ _ _ _ rfl⟩
    have : (turnTile t .g16).image.length = 0x1C0 + 8192 := by
      simp only [turnTile, hf]
      exact buildImage_length _ _ _ _ _
    omega
  · rw [hn]; decide
  · rw [hn]; decide
  · intro k p h; exact absurd h (by simp [show regionOf 0x100000 = Region.stratum 0 by decide])

/-- An image pushed into another spindle's local memory, where it arrives sound; and transfers behind a copy on the same route. -/
theorem wit_device_transfers_far :
    let far : Nat := localBase 7
    let x : Spindle := with12 (BitVec.ofNat 64 far) 0
    let y : Spindle := { Spindle.reset with banks := [(0, ⟨.stream, false, false⟩)] }
    let s : State := { prog (.pushA 3 1 2) x (zeroTile .n8 0) with sp := [(0, x), (7, y)] }
    let copy : Transit := ⟨0, true, 0x4000, routeDies 0 0 far⟩
    let back : Transit := ⟨0, true, 0x4000, routeDies 0 0 (localBase 0 + 0x10000)⟩
    let z (i : SpInstr) : State := { prog i fromLocal (zeroTile .n8 0) with transit := [back] }
    (issues s 0 (.pushA 3 1 2) ∧ s.imageOut 0 0 = .ok (zeroTile .n8 0) ∧ s.deviceCheck far (zeroTile .n8 0).length true = none
      ∧ s.refusing 0 far (zeroTile .n8 0).length true = none ∧ s.routeBusy (localBase 0 + 0) far = false
      ∧ localParts far (zeroTile .n8 0).length ≠ [] ∧ arrivesSound s (localBase 0 + 0) (zeroTile .n8 0) ∧ tearsNone s far) ∧
    (let w : State := { s with transit := [copy] }
     issues w 0 (.pushA 3 1 2) ∧ w.imageOut 0 0 = .ok (zeroTile .n8 0) ∧ w.deviceCheck far (zeroTile .n8 0).length true = none
      ∧ w.refusing 0 far (zeroTile .n8 0).length true = none ∧ w.routeBusy (localBase 0 + 0) far = true) ∧
    (issues (z (.pullA none 3 1 2 0 false)) 0 (.pullA none 3 1 2 0 false)
      ∧ (z (.pullA none 3 1 2 0 false)).deviceCheck (localBase 0) 64 false = none
      ∧ (z (.pullA none 3 1 2 0 false)).refusing 0 (localBase 0) 64 false = none
      ∧ (z (.pullA none 3 1 2 0 false)).routeBusy (localBase 0) (localBase 0 + 0x10000) = true) := by
  have hn : (zeroTile .n8 0).length = 0x1C0 + 4096 := zeroTile_length _ _
  intro far x y s copy back z
  have hi : issues s 0 (.pushA 3 1 2) := issues_loc (x := x) (by decide) rfl rfl (by omega)
  have ho : s.imageOut 0 0 = .ok (zeroTile .n8 0) := 
    (imageOut_congr (t := prog (.pushA 3 1 2) x (zeroTile .n8 0)) rfl 0 0).trans (prog_imageOut (.pushA 3 1 2) x .n8 0 (by decide))
  refine ⟨⟨hi, ho, by rw [hn]; decide, by rw [hn]; decide, rfl, by rw [hn]; decide, sound_zeroTile (by decide) (by decide) (by rw [hn]; rfl), ?_⟩,
    ⟨hi, ho, by rw [hn]; decide, by rw [hn]; decide, by decide⟩, issues_loc (x := fromLocal) (by decide) rfl rfl (by omega), by rfl, by rfl, by decide⟩
  intro k p h
  exact absurd h (by simp [show regionOf far = Region.locals 7 by decide])

/-- An own transfer alone on its route and one behind another's; a prologue copy that may arrive and one behind it. -/
theorem wit_transfer_complete :
    (let x : Spindle := { runner with own := some ⟨some 3, 7, false, none⟩, run := .waitTransfer }
     let s := { prog .endProg x with transit := [⟨0, false, 0, [0]⟩] }
     let z := { prog .endProg x with transit := [⟨1, false, 0, [0]⟩, ⟨0, false, 0, [0]⟩] }
     s.memOk = true ∧ s.jobLive = true ∧ s.paused = false ∧ (s.spindle 0).own = some ⟨some 3, 7, false, none⟩
      ∧ s.mayArrive 0 false 0 = true ∧ (s.spindle 0).run ≠ .idle ∧ z.mayArrive 0 false 0 = false) ∧
    (let c : PrologueXfer := { sliver := 0, src := 0x100000, dst := 0x4000, held := true, bytes := [1, 2, 3, 4] }
     let img : StationImage := { image with banks := [Bank.core, ⟨.stream, false, false⟩] }
     let u : Station := { station with img := img, copies := [c] }
     let s := { prog .endProg { runner with banks := [(1, ⟨.stream, false, false⟩)] } with stations := [(1, u)] }
     let z := { s with transit := [⟨1, false, 0, [0]⟩, ⟨0, true, c.dst, [0]⟩] }
     s.memOk = true ∧ s.sp.wf Spindle.reset = true ∧ s.copyOf 0 = some (1, u, c) ∧ s.mayArrive 0 true c.dst = true ∧ u.copies = [c]
      ∧ (s.spindle 0).owns .stream c.dst c.bytes.length = true ∧ img.declaresStream c.dst c.bytes.length = true
      ∧ z.copyOf 0 = some (1, u, c) ∧ z.mayArrive 0 true c.dst = false) :=
  ⟨⟨by decide, rfl, rfl, rfl, by decide, by decide, by decide⟩,
    by decide, by decide, by decide, by decide, rfl, by decide, by decide, by decide, by decide⟩

/-- A turn out of an exchange bank that retires; a copy into a bank that is not the streaming engine's, and into one that a waiting BANK.TAKE
has taken from it. -/
theorem wit_transfer_refused :
    (let j : TurnJob := ⟨exchangeBase 1, 0x10000, 3, 0, .g16, false, zeroTile .n8 0, false⟩
     let x : Spindle := { runner with own := some ⟨some 3, 7, false, some j⟩, run := .waitTransfer }
     let s := { prog .endProg x with transit := [⟨0, false, 0, [0]⟩] }
     s.memOk = true ∧ s.jobLive = true ∧ s.paused = false ∧ (s.spindle 0).own = some ⟨some 3, 7, false, some j⟩ ∧ s.mayArrive 0 false 0 = true
      ∧ s.station 1 = some station ∧ station.copies = [] ∧ (s.spindle 0).run ≠ .idle ∧ j.torn = false
      ∧ ∃ t, checkTile j.bytes (acceptTurn j.fmt) = .ok t) ∧
    (let c : PrologueXfer := { sliver := 0, src := 0x100000, dst := 0x4000, held := true, bytes := [1, 2, 3, 4] }
     let u : Station := { station with copies := [c] }
     let s (b : Bank) (w : Wait) := { prog .endProg { runner with banks := [(1, b)], wait := w } with stations := [(1, u)] }
     (∀ b w, (s b w).copyOf 0 = some (1, u, c) ∧ (s b w).mayArrive 0 true c.dst = true)
      ∧ ((s Bank.core .none).spindle 0).owns .stream c.dst c.bytes.length = false
      ∧ ((s ⟨.stream, false, false⟩ .none).spindle 0).takenFrom 1 c.dst c.bytes.length = false
      ∧ ((s ⟨.stream, false, true⟩ (.take [2])).spindle 0).takenFrom 1 c.dst c.bytes.length = true) := by
  refine ⟨⟨by decide, rfl, rfl, rfl, by decide, rfl, rfl, by decide, rfl, ?_⟩, fun b w => ⟨rfl, rfl⟩, by decide, by decide, by decide⟩
  obtain ⟨t, h, _⟩ := zeroTile_ok .n8 0 (acceptTurn .g16) (by decide) (by decide) (fun c => rfl)
  exact ⟨t, h⟩

/-- Each operation on a knot that stands at 9; a wait that is met exactly, and one that is not. -/
theorem wit_knots :
    let x := with12 5 9
    let y := with12 5 10
    (∀ op ∈ [KnotOp.add, .set, .rd, .wge, .weq], issues (prog (.knot op 3 1 2) x) 0 (.knot op 3 1 2)
      ∧ (prog (.knot op 3 1 2) x).declares 1 5 = true ∧ (prog (.knot op 3 1 2) x).genMisuse 5 op 9 = false) ∧
    (∀ op ∈ [KnotOp.wge, .weq], issues (prog (.knot op 3 1 2) y) 0 (.knot op 3 1 2)) ∧
    ((prog .endProg).knot 5).value = 9 ∧ (9 : W64).ule 9 = true ∧ (10 : W64).ule 9 = false := by
  refine ⟨fun op h => ?_, fun op h => ?_, rfl, rfl, rfl⟩
  · simp only [List.mem_cons, List.not_mem_nil, or_false] at h
    rcases h with rfl | rfl | rfl | rfl | rfl <;> exact ⟨issues_of (by decide), by decide, by decide⟩
  · simp only [List.mem_cons, List.not_mem_nil, or_false] at h
    rcases h with rfl | rfl <;> exact issues_of (by decide)

theorem wit_knot_wake :
    let w : Waiter := ⟨0, 5, false, 9, .result 3, some 9⟩
    let s : State := { live with waiters := [w, { w with knot := 2053 }, { w with mark := none }] }
    s.job.state = .loaded ∧ s.paused = false ∧ s.waiters.filter (fun w => w.mark.isSome && dieOfKnot w.knot == 0) = [w]
      ∧ (s.spindle 0).run ≠ .idle := by decide

/-- An undeclared knot; COMMITS changed; a slot knot set, raised by two, lowered with no pins, raised with all of them, and left alone. -/
theorem wit_knot_misuse :
    (issues (prog (.knot .rd 3 1 2) (with12 8191 0)) 0 (.knot .rd 3 1 2) ∧ (prog (.knot .rd 3 1 2) (with12 8191 0)).declares 1 8191 = false
      ∧ (prog (.knot .rd 3 1 2) (with12 8192 0)).declares 1 8192 = false) ∧
    (let s := prog (.knot .set 3 1 2) (with12 43 2)
     issues s 0 (.knot .set 3 1 2) ∧ s.declares 1 43 = true ∧ s.genKnot = some 40 ∧ (s.spindle 0).s 2 ≠ (s.knot 43).value
      ∧ issues (prog (.knot .add 3 1 2) (with12 43 1)) 0 (.knot .add 3 1 2)) ∧
    (let s := prog (.knot .set 3 1 2) (with12 40 0)
     issues s 0 (.knot .set 3 1 2) ∧ s.declares 1 40 = true ∧ s.genKnot = some 40) ∧
    (∀ v ∈ [(2 : W64), 0xFFFFFFFFFFFFFFFF, 0], issues (prog (.knot .add 3 1 2) (with12 40 v)) 0 (.knot .add 3 1 2)) ∧
    skPins ((prog .endProg).knot 40).value = 0 ∧
    (let s := { prog (.knot .add 3 1 2) (with12 40 1) with knots := [(40, ⟨skValue 3 0 0xFFFFFFFF, true, false⟩)] }
     issues s 0 (.knot .add 3 1 2) ∧ s.declares 1 40 = true ∧ s.genKnot = some 40 ∧ skPins (s.knot 40).value = 0xFFFFFFFF) := by
  refine ⟨⟨issues_of (by decide), by decide, by decide⟩, ⟨issues_of (by decide), by decide, rfl, by decide, issues_of (by decide)⟩,
    ⟨issues_of (by decide), by decide, rfl⟩, fun v h => ?_, by decide, issues_of (by decide), by decide, rfl, by decide⟩
  simp only [List.mem_cons, List.not_mem_nil, or_false] at h
  rcases h with rfl | rfl | rfl <;> exact issues_of (by decide)
/-! ### Stops, timeouts, random numbers, marks and banks -/

theorem wit_stop : live.jobLive = true ∧ (live.page (pgSPD 0)).errValid = false := by decide

/-- Spindle 0 waits on its own instruction. -/
def waits (r : RunState) (w : Wait) : State := { live with sp := [(0, { runner with run := r, wait := w })] }

theorem wit_timeouts :
    (withQueue7 (waits .waitQueue (.pull 7)) (queue 1 [])).pullWaiting 0 = true
      ∧ (withQueue7 (waits .waitQueue (.push 7)) { queue 1 [entry, { entry with id := 3, slot := .ring 0 }] with waiting := [0] }).pushWaiting 0 = some 7
      ∧ (let s : State := { waits .waitKnot (.knot 5) with waiters := [⟨0, 5, false, 10, .result 3, none⟩] }
         (s.spindle 0).wait = .knot 5 ∧ s.spillWaiting 0 = false ∧ s.jobLive = true ∧ s.paused = false)
      ∧ (prog (.accOpen .a0 1 2 false) { with12 0x10000 0 with run := .waitTracker, wait := .tracker 0 }).epochWaiting 0 = true
      ∧ ({ live with sk := [(0, { Skein.reset with spillWait := [⟨0, 1, 3, false⟩] })] } : State).spillWaiting 0 = true
      ∧ live.station 1 = some station ∧ live.trace.wdMs ≠ 0 ∧ (station.slivers.any fun kv => kv.2 == .running) = true := by decide +kernel

/-- A job with a seed in slot 3. -/
def seeded (s : State) : State := { s with job := { s.job with seeds := [(3, zeros 32)] } }

/-- SS words of purposes 1 and 5, the ends of the range, for tensor 7. -/
theorem wit_random_lanes :
    (∀ p ∈ [1, 5], let v : W64 := BitVec.ofNat 64 (p * 2 ^ 56 + 7)
      issues (seeded (prog (.rngU 3 1 2 3) (with12 0 v))) 0 (.rngU 3 1 2 3)
        ∧ (seeded (prog (.rngU 3 1 2 3) (with12 0 v))).laneKey 0 v 3 = .ok (slotKey (zeros 32)) ∧ field v.toNat 56 8 = p) ∧
    issues (seeded (prog (.rngN 3 1 2 3) (with12 0 7))) 0 (.rngN 3 1 2 3) := by
  refine ⟨fun p h => ?_, issues_of (by decide)⟩
  simp only [List.mem_cons, List.not_mem_nil, or_false] at h
  rcases h with rfl | rfl <;> exact ⟨issues_of (by decide), rfl, by decide⟩

/-- A mask descriptor: tensor 7 of width 256, generation 0, slot 3, to the last 512 bytes of the skein's local memories. -/
def maskDesc : Bytes := leBytes 4 7 ++ zeros 10 ++ [3, 0] ++ leBytes 8 256 ++ leBytes 8 (localBase 64 - 512)

theorem wit_masks :
    (let s := seeded (prog (.rngMask 1) (with12 0 0) maskDesc)
     let m := MaskDesc.parse (s.localRead 0 0 32)
     s.memOk = true ∧ s.sp.wf Spindle.reset = true ∧ s.sk.wf Skein.reset = true ∧ issues s 0 (.rngMask 1)
      ∧ localAddr ((s.spindle 0).s 1) 0 64 = .ok 0
      ∧ s.seedKey m.slot = .ok (slotKey (zeros 32)) ∧ s.tensorWidth 1 m.tensor = some 256 ∧ m.width = 256 ∧ s.genHeld m.gen = true
      ∧ destInSkein 0 m.dest = true ∧ m.dest % 64 = 0 ∧ m.reserved = 0 ∧ (s.skein 0).masks.length < 64 ∧ quotaRoom s 0) ∧
    (let r : MaskReq := ⟨0, slotKey (zeros 32), 256, 7, 0, 0, 0, 0x8000, localBase 63⟩
     let s : State := { waits .waitTransfer .none with sk := [(0, { Skein.reset with masks := [r] })],
                                                       sp := [(0, runner), (63, { Spindle.reset with banks := [(0, ⟨.ply, false, false⟩)] })] }
     s.memOk = true ∧ s.sp.wf Spindle.reset = true ∧ s.sk.wf Skein.reset = true ∧ s.maskRefused 0 (localBase 63) = none
      ∧ destInSkein 0 (localBase 63) = true ∧ (s.spindle 0).run ≠ .idle ∧ station.copies = []) :=
  ⟨⟨by decide, by decide, by decide, issues_of (by decide), ok_of (by decide), rfl, by decide, by decide, by decide, by decide, by decide, by decide, by decide,
    .inr (by decide)⟩, by decide, by decide, by decide, by decide, by decide, by decide, by decide⟩

theorem wit_marks :
    issues (prog (.evtMark 1 0xFFFF)) 0 (.evtMark 1 0xFFFF) ∧ issues (prog (.evtTrig 1 7)) 0 (.evtTrig 1 7)
      ∧ live.trace.phase = .armed ∧ bit live.trace.trigMask 0 = true ∧ (live.ring (pgSPD 0)).frozen = false
      ∧ (live.ring (pgSPD 0)).post < live.postN 64 ∧ live.ringStopped 64 (live.ring (pgSPD 0)) = false :=
  ⟨issues_of (by decide), issues_of (by decide), rfl, by decide, rfl, by decide, by decide⟩

/-- A mark and a trigger in the POST phase, and with the rings frozen. -/
theorem wit_marks_phases :
    let s (p : RingState) (i : SpInstr) : State := { prog i with trace := { live.trace with phase := p } }
    (∀ p, issues (s p (.evtMark 1 0xFFFF)) 0 (.evtMark 1 0xFFFF) ∧ issues (s p (.evtTrig 1 7)) 0 (.evtTrig 1 7)) ∧
    (let i : SpInstr := .evtMark 1 0xFFFF
     (s .post i).ringStopped 64 ((s .post i).ring (pgSPD 0)) = false ∧ (s .frozen i).ringStopped 64 ((s .frozen i).ring (pgSPD 0)) = true) ∧
    (let i : SpInstr := .evtTrig 1 7
     (s .post i).trace.phase ≠ .armed ∧ (s .post i).ringStopped 64 ((s .post i).ring (pgSPD 0)) = false) :=
  ⟨fun p => by cases p <;> exact ⟨issues_of (by decide), issues_of (by decide)⟩, ⟨by decide, by decide⟩, by decide, by decide⟩

/-- BANK.TAKE of a bank that a prologue copy of station 1 targets, and BANK.GIVE of the deferral ring's bank. -/
theorem wit_banks_held :
    let c : PrologueXfer := { sliver := 0, src := 0x100000, dst := 0xC000, held := true, bytes := [1, 2, 3, 4] }
    let x : Spindle := { runner with banks := [(3, ⟨.stream, false, false⟩)] }
    let s : State := { prog (.bankTake 3) x with stations := [(1, { station with copies := [c] })] }
    (issues s 0 (.bankTake 3) ∧ (x.bank 3).owner ≠ .core ∧ s.copyStations 0 3 ≠ [] ∧ x.wait = .none) ∧
    (issues (prog (.bankGive 15 1)) 0 (.bankGive 15 1) ∧ (prog (.bankGive 15 1)).isDeferBank 0 15 = true) :=
  ⟨⟨issues_of (by decide), by decide, by decide, rfl⟩, issues_of (by decide), by decide⟩

/-- A CORE bank and a STREAM bank, given to each owner, taken and shared. -/
theorem wit_banks :
    let x : Spindle := { runner with banks := [(3, ⟨.stream, false, false⟩)] }
    (∀ o : BitVec 2, o ≠ 0 → issues (prog (.bankGive 2 o) x) 0 (.bankGive 2 o) ∧ issues (prog (.bankGive 3 o) x) 0 (.bankGive 3 o)) ∧
    (prog .endProg x).isDeferBank 0 2 = false ∧ (x.bank 2).owner = .core ∧ (x.bank 3).owner ≠ .core
      ∧ issues (prog (.bankTake 2) x) 0 (.bankTake 2) ∧ issues (prog (.bankTake 3) x) 0 (.bankTake 3) ∧ 3 ∉ (prog (.bankTake 3) x).copyBanks 0
      ∧ issues (prog (.bankShare 2 true) x) 0 (.bankShare 2 true) ∧ issues (prog (.bankShare 3 true) x) 0 (.bankShare 3 true) := by
  refine ⟨fun o ho => ?_, by decide, rfl, by decide, issues_of (by decide), issues_of (by decide), by decide, issues_of (by decide),
    issues_of (by decide)⟩
  rcases (by decide : ∀ o : BitVec 2, o ≠ 0 → o = 1 ∨ o = 2 ∨ o = 3) o ho with rfl | rfl | rfl <;>
    exact ⟨issues_of (by decide), issues_of (by decide)⟩

/-! ### Sampling -/

theorem range_right {t u : Tbl Byte} {a n : Nat} (h : ∀ e ∈ t, e.1 < a) : Tbl.range (t ++ u) 0 a n = Tbl.range u 0 a n := by
  have : t.filter (fun kv => decide (a ≤ kv.1) && decide (kv.1 < a + n)) = [] := by
    rw [List.filter_eq_nil_iff]
    intro e he
    have := h e he
    simp
    omega
  simp only [Tbl.range, Tbl.slice, List.filter_append, this, List.nil_append]

theorem range_left {bs : Bytes} {u : Tbl Byte} {a n : Nat} (hu : ∀ e ∈ u, a + bs.length ≤ e.1) (hw : Tbl.wf 0 u = true)
    (hn : n ≤ bs.length) : Tbl.range (Tbl.ofRun 0 a bs ++ u) 0 a n = bs.take n := by
  have hwf : Tbl.wf 0 (Tbl.ofRun 0 a bs ++ u) = true :=
    Tbl.wf_append (k := a + bs.length) (Tbl.wf_ofRun _ _) hw (fun e he => (Tbl.ofRun_keys he).2) hu
  rw [Tbl.range_eq _ _ hwf]
  apply List.ext_getElem (by simp; omega)
  intro k h1 h2
  simp only [List.length_map, List.length_range] at h1
  simp only [List.getElem_map, List.getElem_range]
  rw [Tbl.get_append_left (fun e he => by have := hu e he; omega), Tbl.get_ofRun, if_pos (by omega)]
  simp [List.getElem?_eq_getElem (show k < bs.length by omega)]

/-- Greedy sampling of one token of a vocabulary of one: the logits at 0x100000, the rows at 0x200000, the results at 0x300000. -/
def sampleDesc : Bytes :=
  leBytes 8 0x100000 ++ leBytes 4 16832 ++ leBytes 4 1 ++ zeros 16 ++ leBytes 8 0x200000 ++ leBytes 8 0x300000 ++ leBytes 2 5 ++ zeros 14
def sampleRows : Bytes := leBytes 8 (2 ^ 63) ++ zeros 504
def sampleRest : Tbl Byte := Tbl.ofRun 0 0x200000 sampleRows ++ Tbl.ofRun 0 (localBase 0) sampleDesc
def sampleMem : Tbl Byte := Tbl.ofRun 0 0x100000 (zeroTile .f32 0) ++ sampleRest

def sampleReq : SampleReq := ⟨0, 1, 0, 0, sampleDesc, sampleRows, [zeroTile .f32 0], []⟩
def sampling : State := { live with mem := sampleMem, smp := [(0, ⟨[sampleReq], none, 0, 0⟩)] }

theorem sampleRest_above : ∀ e ∈ sampleRest, 0x100000 + (zeroTile .f32 0).length ≤ e.1 := by
  rw [zeroTile_length]
  intro e he
  rcases List.mem_append.1 he with he | he
  · have := (Tbl.ofRun_keys he).1; simp only [Fmt.payloadLen]; omega
  · have := (Tbl.ofRun_keys he).1; simp only [Fmt.payloadLen, localBase] at *; omega

theorem sampling_load (a n : Nat) (h : 0x100000 + (zeroTile .f32 0).length ≤ a) : sampling.load a n = Tbl.range sampleRest 0 a n :=
  range_right fun _ he => Nat.lt_of_lt_of_le (Tbl.ofRun_keys he).2 h

theorem sampling_tile (n : Nat) (h : n ≤ (zeroTile .f32 0).length) : sampling.load 0x100000 n = (zeroTile .f32 0).take n :=
  range_left sampleRest_above (by decide +kernel) h

theorem sampling_rows : sampling.load 0x200000 512 = sampleRows := by
  rw [sampling_load _ _ (by rw [zeroTile_length]; decide)]; decide +kernel

theorem sampling_desc : sampling.localRead 0 0 64 = sampleDesc := by
  show sampling.load (localBase 0 + 0) 64 = _
  rw [sampling_load _ _ (by rw [zeroTile_length]; decide)]; decide +kernel

theorem sampling_logits : sampling.load 0x100000 16832 = zeroTile .f32 0 := by
  have hl : (zeroTile .f32 0).length = 16832 := zeroTile_length _ _
  rw [sampling_tile _ (by omega), ← hl, List.take_length]

theorem sampling_head : Desc.parse (sampling.load 0x100000 64) = Desc.parse (zeroTile .f32 0) := by
  have hl : (zeroTile .f32 0).length = 16832 := zeroTile_length _ _
  have := parse_append (a := (zeroTile .f32 0).take 64) (b := (zeroTile .f32 0).drop 64) (by simp; omega)
  rw [List.take_append_drop] at this
  rw [sampling_tile _ (by omega), this]

theorem sampling_memOk : sampling.memOk = true :=
  Tbl.wf_append (k := 0x100000 + (zeroTile .f32 0).length) (Tbl.wf_ofRun _ _) (by decide +kernel) (fun e he => (Tbl.ofRun_keys he).2)
    sampleRest_above

theorem sampling_gather (s : State) (hm : s.mem = sampling.mem) (hb : s.bad = []) (hs : s.soft = []) (hr : s.samplerReach 0x100000 16832 = none)
    (hw : s.snap.waits = []) (hc : ∀ p, s.clearsPage p = false) :
    ∃ sets s1, gatherTiles 0 (SampleDesc.parse sampleDesc) none [0] ((validRows sampleRows).map fun r => (r, [])) s = (.ok sets, s1) := by
  obtain ⟨t, h, h7, h0, hf, hp⟩ := zeroTile_ok .f32 0 acceptLogits (by decide) (by decide) (fun c => rfl)
  have hl : (zeroTile .f32 0).length = 16832 := zeroTile_length _ _
  have hcons : s.consume (Consumer.onDie 0 0x23 0) 0x100000 acceptLogits = (.ok t, s) := by
    refine State.consume_ok hb hs ?_
    have hn : ∀ a n, s.loadNew a n = sampling.load a n := fun a n =>
      (State.loadNew_eq_load a n hw (by simp [hc])).trans (load_congr hm a n)
    rw [hn, hn, sampling_head, stored_zeroTile .f32 0 (by decide), hl, sampling_logits, h]
  have hc : rowCands t 1 0 = .ok [⟨0, 0⟩] := by
    simp only [rowCands, h0, zero_code hp]
    exact ok_of (by decide +kernel)
  have hd : (SampleDesc.parse sampleDesc).logits + 0 * (SampleDesc.parse sampleDesc).stride = 0x100000 := by decide +kernel
  have hj : joinTile (SampleDesc.parse sampleDesc) t [(0, [])] = .ok [(0, [⟨0, 0⟩])] := by
    have hv : (SampleDesc.parse sampleDesc).vocab = 1 := by decide +kernel
    have hk : (SampleDesc.parse sampleDesc).topK = 0 := by decide +kernel
    simp [joinTile, hv, hc, hk]
  have hrow : validRows sampleRows = [0] := by decide +kernel
  refine ⟨[(0, [⟨0, 0⟩])], s, ?_⟩
  rw [hrow]
  simp only [gatherTiles, hd, hr, hcons, List.map_cons, List.map_nil, hj, h0]
  rfl

/-- The request waits at the head of the die's queue, nothing has touched its row, and its tile passes. -/
theorem wit_sample :
    let d := SampleDesc.parse sampleDesc
    let s0 := (sampling.setSampler 0 { sampling.sampler 0 with queue := [] }).demandRead d.rows 512
    sampling.memOk = true ∧ sampling.smp.wf Sampler.reset = true ∧ sampling.knots.wf Knot.reset = true
      ∧ (sampling.sampler 0).queue = [sampleReq] ∧ (sampling.sampler 0).ending = none ∧ sampling.snap.waits = []
      ∧ (∀ p, sampling.pageHeld p = false) ∧ d.rows = 0x200000 ∧ sampling.samplerReach 0x200000 512 = none
      ∧ sampling.samplerReach d.results 512 = none ∧ sampling.load 0x200000 512 = sampleRows ∧ d.invalid = false
      ∧ (validRows sampleRows).isEmpty = false ∧ (∃ key, sampling.sampleKey sampleReq.station d = .ok key) ∧ d.logits % 64 = 0
      ∧ d.greedy = true ∧ d.logits = 0x100000 ∧ d.tiles = 1
      ∧ (∃ sets s1, gatherTiles 0 d none [0] ((validRows sampleRows).map fun r => (r, [])) s0 = (.ok sets, s1))
      ∧ sampling.localRead sampleReq.spindle sampleReq.at_ 64 = sampleReq.desc ∧ sampling.load 0x100000 16832 = zeroTile .f32 0
      ∧ (∀ r, sampleReq.touched sampleReq.desc sampleRows [zeroTile .f32 0] r = false)
      ∧ d.knot = 5 ∧ sampling.declares 1 5 = true ∧ sampling.genMisuse 5 .add 1 = false :=
  ⟨sampling_memOk, rfl, by decide, rfl, rfl, rfl,
    fun p => live_pageHeld rfl rfl rfl p, by decide +kernel, by decide, by decide +kernel, sampling_rows, by decide +kernel,
    by decide +kernel, ok_exists (by decide +kernel), by decide +kernel, by decide +kernel, by decide +kernel, by decide +kernel,
    by
      rw [State.demandRead_clean _ _ rfl rfl]; exact sampling_gather _ rfl rfl rfl (by decide) rfl (live_clearsPage rfl rfl), sampling_desc, sampling_logits,
    fun r => by simp [SampleReq.touched, sampleReq], by decide +kernel, by decide, by decide⟩

/-- RNG.SAMPLE with one place left in the queue. -/
theorem wit_sample_issue :
    let s : State := { prog (.rngSample 1) (with12 0 0) sampleDesc with smp := [(0, ⟨List.replicate 15 sampleReq, none, 0, 0⟩)] }
    issues s 0 (.rngSample 1) ∧ localAddr ((s.spindle 0).s 1) 0 64 = .ok 0 ∧ s.hasSmp = true ∧ (s.sampler 0).queue.length < 16 :=
  ⟨issues_of (by decide), ok_of (by decide), by decide, by decide⟩

/-! ### Stations, skeins, clocks and the ply unit -/

/-- The station waits for its start; `p` is the power of its skein. -/
def startable (p : Power) : State :=
  { live with stations := [(1, { station with slivers := [] })], sk := [(0, { Skein.reset with power := p })], sp := [] }

theorem wit_station_start :
    (startable .ready).job.state = .loaded ∧ (startable .ready).paused = false ∧ (startable .ready).station 1 = some { station with slivers := [] }
      ∧ 0 < image.spindles.length ∧ (startable .ready).startHolds { station with slivers := [] } 0 = true
      ∧ Station.prologueDone { station with slivers := [] } 0 = true ∧ ((startable .ready).skein 0).power = .ready
      ∧ ((startable .ready).spindle 0).run = .idle ∧ ((startable .off).skein 0).power = .off ∧ (startable .off).power.coolantStop = false := by
  decide

/-- A wake and a raise at the front of the sequencer, a skein that is waking, a raise that is granted. -/
theorem wit_skein_power :
    (let s : State := { startable .requested with power := { live.power with queue := [.wake 0, .raise 1], granted := [.raise 143] } }
     s.paused = false ∧ s.power.queue = .wake 0 :: [.raise 1] ∧ (s.skein 0).power = .requested
      ∧ s.power.granted.contains (.raise 143) = true ∧ s.power.pendingMode = none) ∧
    (startable .waking).memOk = true ∧ ((startable .waking).skein 0).power = .waking
      ∧ (∀ v ∈ (startable .waking).stations, v.2.copies = [] ∧ v.2.img.codeBase + v.2.img.codeLen ≤ 0x3F0000) := by
  decide +kernel

theorem wit_prologue_trigger :
    let img : StationImage := { image with prologue := [(0, [.copy 0x100000 0x4000])] }
    let u : Station := { station with img := img, slivers := [], triggered := [0] }
    let s : State := { startable .off with stations := [(1, u)] }
    s.job.state = .loaded ∧ s.station 1 = some u ∧ u.triggered.contains 0 = true ∧ u.issued.contains 0 = false ∧ (s.skein 0).power ≠ .ready
      ∧ s.power.coolantStop = false := by
  decide

/-- A report of the current epoch, of the next and of a past one, a tally, and a stale one. -/
def report (tref : W64) : Report := ⟨tref, 0, { Counts.zero with clipped := 3 }, 1, 0, 0, [], false⟩
def reporting (tref : W64) : State :=
  { live with sk := [(0, { Skein.reset with power := .ready, trackers := [(0, { tracker with epoch := 4 })], reports := [report tref] })] }

theorem wit_tracker_report :
    (∀ r : W64, ((reporting r).skein 0).reports[0]? = some (report r)) ∧
    (∀ r : W64, (TRef.parse r).skein = 0 → (TRef.parse r).tracker = 0 → ((reporting r).trackerOf (TRef.parse r)).bound = true) ∧
    (TRef.parse 0x40000 = ⟨4, false, 0, 0⟩ ∧ TRef.parse 0x48000 = ⟨4, true, 0, 0⟩) ∧
    ((reporting 0x40000).readyReport 0 = some 0 ∧ (reporting 0x50000).readyReport 0 = some 0 ∧ (reporting 0x38000).readyReport 0 = some 0
      ∧ (reporting 0x10000).readyReport 0 = some 0) ∧
    (let t := { tracker with epoch := 4 }
     t.judge 4 false = .join 0 ∧ t.judge 5 false = .join 1 ∧ t.judge 3 true = .past ∧ t.judge 1 false = .stale
      ∧ ({ t with cur := { StepAcc.zero with reports := 1 } } : Tracker).judge 6 false = .join 2) :=
  ⟨fun _ => rfl, fun r hk hj => by rw [State.trackerOf, hk, hj]; rfl, by decide +kernel, by decide +kernel, by decide +kernel⟩

theorem wit_tracker_step :
    let t : Tracker := { tracker with cur := { StepAcc.zero with reports := 1 } }
    let s : State := { live with sk := [(0, { Skein.reset with power := .ready, trackers := [(0, t)] })] }
    s.jobLive = true ∧ s.paused = false ∧ t.bound = true ∧ t.stepping = true := by decide

/-- The ends of the ranges. -/
theorem wit_policy_range :
    (∀ t ∈ [{ tracker with exp := 1, anchor := -32768, dwell := 65535 }, { tracker with exp := 0xFE, anchor := 32767 }],
      1 ≤ t.exp ∧ t.exp ≤ 0xFE ∧ -32768 ≤ t.anchor ∧ t.anchor ≤ 32767 ∧ t.dwell ≤ 65535) ∧ tracker.cur.fit = 0 := by decide

theorem wit_spill :
    let s : State := { live with sk := [(0, { Skein.reset with power := .ready, spillUsed := [(1, 5)], spillWait := [⟨0, 1, 3, false⟩] })] }
    s.jobLive = true ∧ s.paused = false ∧ (s.skein 0).spillUsed.wf 0 = true
      ∧ (s.skein 0).spillWait.find? (fun r => !r.granted) = some ⟨0, 1, 3, false⟩ ∧ 3 ≤ (s.skein 0).spillFree 1 (s.spillQuota 1 0)
      ∧ s.spillWaiting 0 = true := by decide


/-! ### The generation engine, beats and the ring -/

/-- A worker on the ring at position 9, which expects frame 10; `f` is such a frame with the operation `op`. -/
def onBeat (s : State) : State := { s with trd := { s.trd with link := .framed, tpos := 9, closed := false, rank := 1, pos := 3, firstEdge := some 0 } }
def ringFrame (op arg : Nat) : TFrame := TFrame.seal ⟨false, 10, 1, op, arg, 0⟩
def voting (p : Nat) : State := { onBeat live with gen := { live.gen with vote := some ⟨p, 1, true⟩ } }

theorem wit_slot_built :
    let s : State := { live with knots := Tbl.set knots Knot.reset 41 ⟨skValue 1 1 0, true, false⟩ }
    s.job.mapping = some mapping ∧ s.jobLive = true ∧ s.paused = false ∧ s.slotState (s.commits % 3) = 1
      ∧ (s.build + 2 ^ 64 - (s.commits + 1) * mapping.buildInc.toNat % 2 ^ 64) % 2 ^ 64 < 2 ^ 63 := by decide +kernel

def workerAt (s : State) (f : TFrame) : Bool :=
  s.power.pg && s.mgr.plan.isNone && s.onRing && !f.trunk && f.good && decide (s.trd.tpos = (f.pos.toNat + 2 ^ 64 - 1) % 2 ^ 64)

theorem atWorker_of {s : State} {f : TFrame} (h : workerAt s f = true) : atWorker s f := by
  simp only [workerAt, Bool.and_eq_true, Bool.not_eq_true', Option.isNone_iff_eq_none] at h
  obtain ⟨⟨⟨⟨⟨h1, h2⟩, h3⟩, h4⟩, h5⟩, h6⟩ := h
  exact ⟨h1, h2, h3, h4, h5, of_decide_eq_true h6⟩

/-- A decision for a position to come and for one that has passed. -/
theorem wit_decision :
    (∀ p ∈ [100, 5], (voting p).gen.vote = some ⟨p, 1, true⟩ ∧ (voting p).job.state = .loaded ∧ (voting p).soloJob = false
      ∧ (voting p).trd.heldDecision = none ∧ (voting p).paused = false ∧ p % 4096 = (ringFrame opCOMMIT p).arg
      ∧ posLe p (voting p).jobPos = decide (p = 5)) ∧
    atWorker (voting 100) { ringFrame opCOMMIT 100 with op := opCOMMIT } ∧ atWorker (voting 100) { ringFrame opDEFER 100 with op := opDEFER } ∧
    atWorker (voting 5) { ringFrame opCOMMIT 5 with op := opCOMMIT } ∧ atWorker (voting 5) { ringFrame opDEFER 5 with op := opDEFER } ∧
    (let s := voting 5
     s.genKnot = some 40 ∧ s.knots.wf Knot.reset = true ∧ s.commits = 1 ∧ s.slotState 1 = 2 ∧ s.slotState 0 = 3 ∧ s.slotState 2 = 4
      ∧ skPins (s.slotKnot 2) = 0 ∧ (∀ kx ∈ s.sk, kx.2.drain = false ∧ kx.2.drainCount ((s.commits + 65535) % 65536) = 0)
      ∧ s.gen.held = [] ∧ s.evt.undecided = []) :=
  ⟨by decide +kernel, atWorker_of (by decide +kernel), atWorker_of (by decide +kernel), atWorker_of (by decide +kernel),
    atWorker_of (by decide +kernel), by decide +kernel⟩

theorem wit_commit_end :
    (let s : State := { live with gen := { live.gen with applied := some 1 },
                                  knots := Tbl.set knots Knot.reset 42 ⟨skValue 5 0 0, true, false⟩ }
     s.jobLive = true ∧ s.paused = false ∧ s.gen.applied = some 1 ∧ s.genKnot = some 40 ∧ s.knots.wf Knot.reset = true
      ∧ s.canComplete = true ∧ s.slotState ((1 + 1) % 3) = 5 ∧ s.commits < 2 ^ 64 - 1) ∧
    (let s : State := { voting 5 with trd := { (voting 5).trd with tpos := 13 } }
     s.jobLive = true ∧ s.paused = false ∧ s.gen.vote = some ⟨5, 1, true⟩ ∧ 5 + s.mapLead ≤ s.jobPos) := by decide +kernel

/-- A loaded job on the module's own beat, with one entry in its table. -/
def scheduled (e : EvEntry) : State :=
  { onBeat live with trd := { (onBeat live).trd with link := .down }, evt := { live.evt with entries := [(2, e)] } }
def entryAt (pos action : Nat) : EvEntry := { EvEntry.reset with pos := pos, period := 0, action := action, valid := true }

theorem wit_beat :
    (∀ e ∈ [entryAt 18 actCOMMIT, entryAt 10 actKNOT_ADD, entryAt 10 actSAMPLE],
      let s := scheduled e
      s.power.pg = true ∧ s.evt.entries = [(2, e)] ∧ e.valid = true ∧ s.paused = false ∧ s.job.state = .loaded ∧ s.started = true
        ∧ s.trd.resume = none ∧ s.mgr.plan = none ∧ s.onRing = false ∧ s.evt.carried = [] ∧ s.knots.wf Knot.reset = true
        ∧ s.job.mapping = some mapping ∧ (s.jobPos + 1) % 2 ^ 64 = 10) ∧
    (entryAt 18 actCOMMIT).pos = (10 + mapping.voteLead) % 2 ^ 64 ∧ 0 < mapping.voteLead := by decide +kernel

theorem wit_vote :
    atWorker (voting 100) { ringFrame opVOTE 100 with op := opVOTE } ∧ (voting 100).isWorker = true ∧ (voting 100).trd.closed = false ∧ (voting 100).evt.entries = [] ∧
    (let p : Plan := { (default : Plan) with top := false, trunk := false }
     let s : State := { onBeat live with mgr := { live.mgr with plan := some p }, trust := { live.trust with mgrRole := true } }
     let f := TFrame.seal ⟨true, 10, 1, opTALLY, 100, 0⟩
     s.mgr.plan = some p ∧ s.headsTrunk = false ∧ s.workerRole = false ∧ s.power.pg = true ∧ s.onRing = true ∧ f.trunk = true
      ∧ ({ f with op := opTALLY } : TFrame).good = true) :=
  ⟨atWorker_of (by decide +kernel), by decide, by decide, rfl, by decide +kernel⟩

/-- STOP, BYPASS and UNBYPASS of the module's own position 3 and of position 1, and NOP. -/
theorem wit_ring_commands :
    atWorker (onBeat live) { ringFrame opSTOP 0 with op := opSTOP } ∧ (onBeat live).jobLive = true ∧
    (∀ a ∈ [3, 1], atWorker (onBeat live) { ringFrame opBYPASS a with op := opBYPASS } ∧ (ringFrame opBYPASS a).arg = a) ∧
    (let s : State := { onBeat live with trd := { (onBeat live).trd with closed := true } }
     ∀ a ∈ [3, 1], atWorker s { ringFrame opUNBYPASS a with op := opUNBYPASS } ∧ (ringFrame opUNBYPASS a).arg = a
      ∧ s.trd.closed = true ∧ s.trd.byCtl = false ∧ s.trd.holdLost = false ∧ s.trd.lastByp.get 0 a = 0) ∧
    (onBeat live).trd.pos = 3 ∧ (onBeat live).trd.closed = false ∧ (onBeat live).trd.lastByp.get 0 1 = 0 ∧
    ({ ringFrame opNOP 0 with op := opNOP } : TFrame).good = true := by
  refine ⟨atWorker_of (by decide +kernel), by decide, ?_, ?_, by decide, by decide, by decide, by decide +kernel⟩
  · intro a ha
    rcases List.mem_cons.1 ha with rfl | ha
    · exact ⟨atWorker_of (by decide +kernel), rfl⟩
    · obtain rfl := List.mem_singleton.1 ha
      exact ⟨atWorker_of (by decide +kernel), rfl⟩
  · intro s a ha
    rcases List.mem_cons.1 ha with rfl | ha
    · exact ⟨atWorker_of (by decide +kernel), rfl, by decide, by decide, by decide, by decide⟩
    · obtain rfl := List.mem_singleton.1 ha
      exact ⟨atWorker_of (by decide +kernel), rfl, by decide, by decide, by decide, by decide⟩

theorem wit_ring_interface :
    live.trd.link = .down ∧ live.power.pg = true ∧
    (let s : State := { onBeat live with trd := { (onBeat live).trd with link := .lock, goodRun := 7 } }
     s.trd.link = .lock ∧ s.trd.goodRun = 7 ∧ s.trd.compensated = false ∧ s.mgr.plan = none ∧ s.power.pg = true) ∧
    (let s : State := { onBeat live with trd := { (onBeat live).trd with missedRun := 64 } }
     s.onRing = true ∧ 64 ≤ s.trd.missedRun ∧ s.workerRole = true ∧ s.soloJob = false ∧ s.jobLive = true) ∧
    (let s : State := { live with trd := { live.trd with closing := some false } }
     s.trd.closing = some false ∧ s.trd.closed ≠ false) ∧
    (let s : State := { live with trd := { live.trd with closing := some true } }
     s.trd.closing = some true ∧ s.trd.closed = true) := by decide

/-! ### Sessions -/

/-- A session of a kind at its first message, in slot 0 of the engine of plane A; `talk x` is a module with that session alone. -/
def sess (kind : Nat) : Session :=
  { Session.fresh with id := 7, kind := kind, state := .OP, epoch := 1, addr := 5, keyRx := if kind = 0 then [1] else [] }
def talk (x : Session) : State := { live with mrn := { live.mrn with sessions := [(0, x)] } }

/-- The packet with this sequence number and payload on the session; on a CONTROL session its tag verifies. -/
def plainPacket (x : Session) (seq : Nat) (cmd : W64) (b : Bytes) : Packet :=
  { port := 0, src := x.addr, srcPort := 0x8000, ce := false, version := 1, flags := if x.kind = 0 then 4 else 0, session := x.id,
    epoch := x.epoch, seq := seq, ack := 0, sack := 0, cmd := cmd, len := b.length, ceCount := 0, reserved := 0, payload := b,
    tag := if x.kind = 0 then zeros 16 else [] }
def packet (x : Session) (typ seq : Nat) (b : Bytes) (cmd : W64 := 0) : Packet :=
  let p := plainPacket x seq cmd b
  if x.kind = 0 then { p with tag := mrnTag x.keyRx (p.bytes typ) } else p

/-- No session of the table is near the end of its sequence numbers. -/
theorem numbersLeft_of {s : State} (h : (s.mrn.sessions.all fun e => decide (e.2.txNext + 2 ^ 16 ≤ 2 ^ 48 - 258)) = true) : numbersLeft s := by
  intro i
  simp only [State.session]
  generalize s.mrn.sessions = t at h
  induction t with
  | nil => show (1 : Nat) + 2 ^ 16 ≤ 2 ^ 48 - 258; decide
  | cons e t ih =>
    simp only [List.all_cons, Bool.and_eq_true, decide_eq_true_eq] at h
    simp only [Tbl.get]
    split
    · exact h.1
    · split
      · decide
      · exact ih h.2

/-- The conditions of `onSlot` but the tag, and those of `inSequence` besides, as tests. -/
def slotTest (s : State) (p : Packet) (typ i : Nat) : Bool :=
  s.mrn.table.isNone && s.takesPackets p typ && !p.malformed typ && typ != 1 && s.slotOf (portPlane p.port) p.session == some i && typeFits typ (s.session i).kind
    && ((s.session i).kind == 0 || !p.flags.getLsbD 2)
def seqTest (s : State) (p : Packet) (typ i : Nat) : Bool :=
  let x := s.session i
  decide (0x0100 ≤ typ) && x.state == .OP && p.epoch == x.epoch && p.seq == x.rxAck + 1 && x.held.isEmpty && x.ready.isEmpty
    && decide (x.unackedRx < 15) && !p.flags.getLsbD 0 && !p.flags.getLsbD 3 && !p.ce && !s.paused && !badChunk ⟨typ, p.cmd, p.payload⟩

theorem packet_tagOk (x : Session) (typ seq : Nat) (b : Bytes) (cmd : W64) (h : x.kind ≠ 0 ∨ x.keyRx ≠ []) :
    x.tagOk (packet x typ seq b cmd) typ = true := by
  by_cases h0 : x.kind = 0
  · have hk : x.keyRx ≠ [] := by rcases h with h | h; exact absurd h0 h; exact h
    have hf : (plainPacket x seq cmd b).flags = 4 := by simp [plainPacket, h0]
    simp only [Session.tagOk, packet, h0, if_pos, hf, Packet.bytes, Bool.or_eq_true]
    simp [hk]
  · simp [Session.tagOk, h0]

theorem packet_slot {s : State} {x : Session} {typ seq i : Nat} {b : Bytes} {cmd : W64} (hx : s.session i = x)
    (hk : x.kind ≠ 0 ∨ x.keyRx ≠ []) (h : slotTest s (plainPacket x seq cmd b) typ i = true) : onSlot s (packet x typ seq b cmd) typ i := by
  simp only [slotTest, Bool.and_eq_true, Bool.or_eq_true, Bool.not_eq_true', bne_iff_ne, beq_iff_eq, Option.isNone_iff_eq_none] at h
  obtain ⟨⟨⟨⟨⟨⟨h0', h1⟩, h2⟩, h3⟩, h4⟩, h5⟩, h6⟩ := h
  have ht := packet_tagOk x typ seq b cmd hk
  refine ⟨h0', ?_, ?_, h3, ?_, h5, ?_, by rw [hx]; exact ht⟩
  · by_cases h0 : x.kind = 0 <;> simp only [packet, h0] <;> exact h1
  · by_cases h0 : x.kind = 0
    · rw [← h2]
      simp [packet, h0, Packet.malformed, mrnTag_length, plainPacket, zeros]
    · simp only [packet, h0]; exact h2
  · by_cases h0 : x.kind = 0 <;> simp only [packet, h0] <;> exact h4
  · intro hne
    rw [hx] at h6 hne
    rcases h6 with h6 | h6
    · exact absurd h6 hne
    · simp only [packet, hne]; exact h6

theorem packet_seq {s : State} {x : Session} {typ seq i : Nat} {b : Bytes} {cmd : W64} (hx : s.session i = x)
    (hk : x.kind ≠ 0 ∨ x.keyRx ≠ []) (h : slotTest s (plainPacket x seq cmd b) typ i = true)
    (hs : seqTest s (plainPacket x seq cmd b) typ i = true)
    (hn : numbersLeft s := by first | exact numbersLeft_of (by decide) | exact numbersLeft_of rfl) : inSequence s (packet x typ seq b cmd) typ i := by
  simp only [seqTest, Bool.and_eq_true, Bool.not_eq_true', beq_iff_eq, decide_eq_true_eq, List.isEmpty_iff] at hs
  obtain ⟨⟨⟨⟨⟨⟨⟨⟨⟨⟨⟨a, b'⟩, c⟩, d⟩, e⟩, f⟩, g⟩, i1⟩, j⟩, k⟩, l⟩, m⟩ := hs
  have hp : ∀ {α : Type} (g : Packet → α), (∀ q t, g { q with tag := t } = g q) →
      g (packet x typ seq b cmd) = g (plainPacket x seq cmd b) := by
    intro α g hg
    simp only [packet]
    split
    · exact hg _ _
    · rfl
  refine ⟨packet_slot hx hk h, a, b', ?_, ?_, e, f, g, ?_, ?_, ?_, l, ?_⟩
  · rw [hp Packet.epoch fun _ _ => rfl]; exact c
  · rw [hp Packet.seq fun _ _ => rfl]; exact d
  · rw [hp Packet.flags fun _ _ => rfl]; exact i1
  · rw [hp Packet.flags fun _ _ => rfl]; exact j
  · rw [hp Packet.ce fun _ _ => rfl]; exact k
  · rw [hp Packet.cmd fun _ _ => rfl, hp Packet.payload fun _ _ => rfl]; exact ⟨m, hn⟩

/-- A message of each kind of session, first and at the largest sequence number. -/
theorem wit_delivery :
    sequencedRow (.identify (packet (sess 0) 0x0100 1 (zeros 8))) = some (packet (sess 0) 0x0100 1 (zeros 8), 0x0100) ∧
    inSequence (talk (sess 0)) (packet (sess 0) 0x0100 1 (zeros 8)) 0x0100 0 ∧
    inSequence (talk (sess 1)) (packet (sess 1) 0x0202 1 (zeros 16)) 0x0202 0 ∧
    inSequence (talk { sess 2 with rxAck := 2 ^ 48 - 2 }) (packet { sess 2 with rxAck := 2 ^ 48 - 2 } 0x0301 (2 ^ 48 - 1) (zeros 16)) 0x0301 0 ∧
    inSequence (talk (sess 3)) (packet (sess 3) 0x0406 1 (zeros 16)) 0x0406 0 :=
  ⟨rfl, packet_seq rfl (by decide) (by decide) (by decide), packet_seq rfl (by decide) (by decide) (by decide),
    packet_seq rfl (by decide) (by decide +kernel) (by decide +kernel), packet_seq rfl (by decide) (by decide) (by decide)⟩

theorem wit_duplicate :
    let x := { sess 1 with rxAck := 1 }
    onSlot (talk x) (packet x 0x0202 1 (zeros 16)) 0x0202 0 ∧ ((talk x).session 0).state = .OP ∧ (packet x 0x0202 1 (zeros 16)).seq ≤ x.rxAck
      ∧ hasKey x ∧ (talk x).paused = false :=
  ⟨packet_slot rfl (by decide) (by decide), by decide, by decide, rfl, rfl⟩

/-- A chunk that comes again while the module is paused. -/
theorem wit_duplicate_paused :
    let x := { sess 2 with rxAck := 1 }
    let s : State := { talk x with sag := { live.sag with state := .hold } }
    onSlot s (packet x 0x0300 1 (zeros 25)) 0x0300 0 ∧ (s.session 0).state = .OP ∧ (packet x 0x0300 1 (zeros 25)).seq ≤ x.rxAck ∧ hasKey x
      ∧ s.paused = true :=
  ⟨packet_slot rfl (by decide) (by decide), by decide, by decide, rfl, rfl⟩

/-- For a session that needs no tag the tests say everything. -/
theorem slot_of {s : State} {p : Packet} {typ i : Nat} (h : (slotTest s p typ i && (s.session i).tagOk p typ) = true) :
    onSlot s p typ i := by
  simp only [slotTest, Bool.and_eq_true, Bool.or_eq_true, Bool.not_eq_true', bne_iff_ne, beq_iff_eq, Option.isNone_iff_eq_none] at h
  obtain ⟨⟨⟨⟨⟨⟨⟨h0, h1⟩, h2⟩, h3⟩, h4⟩, h5⟩, h6⟩, h7⟩ := h
  exact ⟨h0, h1, h2, h3, h4, h5, fun hne => h6.resolve_left hne, h7⟩

/-- A MEMBERSHIP session in a state, with messages `out` unacknowledged. -/
def sessIn (st : SessState) (kind : Nat := 1) (out : List OutMsg := []) : Session :=
  { sess kind with state := st, out := out, txNext := out.length + 1, opener := true }
def outMsg (seq : Nat) : OutMsg := { seq := seq, msg := ⟨0x0204, 0, zeros 24⟩, retx := false, sacked := false, above := 0 }

/-- A module that knows the worker of rank 2 at address 5, and is rank 3 itself. -/
def known : State :=
  { live with trd := { live.trd with members := [{ (default : Member) with rank := 2, addrA := 5 }] },
              job := { live.job with mapping := some { mapping with rank := 3 } } }
/-- A HELLO of a kind for rank 2. -/
def hello (kind : Nat) : Packet :=
  let b := leBytes 1 kind ++ zeros 23 ++ leBytes 2 2 ++ zeros (if kind = 0 then 70 else 14)
  { plainPacket (sess 1) 0 0 b with session := 0 }

theorem wit_hello :
    (∀ k ∈ [0, 1, 3], known.takesPackets (hello k) 0x0001 = true ∧ (hello k).malformed 0x0001 = false ∧ known.lockedOut (hello k).src = false
      ∧ known.trust.recovery = false ∧ known.mrn.table = none ∧ known.job.unsent = [] ∧ known.helloSeen (hello k) = none ∧ known.kindFull k 0 = false ∧ portPlane (hello k).port = 0
      ∧ leAt (hello k).payload 0 1 = k ∧ known.mrn.sessions.find (known.freeSlot (planeEngine 0)) = none) ∧
    known.trust.fuses.lc ≠ 4 ∧
    (∀ k ∈ [1, 3], known.knowsPeer k (leAt (hello k).payload 24 2) (hello k).src = true) ∧ known.mrn.sessions = [] := by
  decide

/-- A CONTROL session that waits for PROVE, with a proof that verifies and with none of a known slot. -/
def proving : Session := { sess 0 with state := .OG, epoch := 0, keyRx := [], transcript := zeros 64, peerKey := zeros 56 }
def provable : State :=
  { talk proving with trust := { live.trust with fuses := { live.trust.fuses with lc := 1, ownerKeys := [(0, neutralKey)] } } }
def proof (slot : Nat) : Packet := { plainPacket proving 0 0 (leBytes 1 slot ++ neutralSig) with flags := 0, tag := [] }

theorem wit_prove :
    (∀ k ∈ [0, 1], onSlot provable (proof k) 0x0003 0) ∧ (provable.session 0).state = .OG ∧ (provable.session 0).kind = 0
      ∧ (provable.session 0).opener = false ∧ provable.proofKey (leAt (proof 0).payload 0 1) = some neutralKey
      ∧ (proof 0).payload.length = 115 ∧ edVerify neutralKey (provable.session 0).transcript ((proof 0).payload.drop 1) = true
      ∧ provable.proofKey (leAt (proof 1).payload 0 1) = none ∧ provable.mrn.sessions.wf Session.fresh = true := by
  refine ⟨?_, rfl, rfl, rfl, by decide, by decide, edVerify_neutral _, by decide, by decide⟩
  intro k hk
  rcases List.mem_cons.1 hk with rfl | hk
  · exact slot_of (by decide)
  · obtain rfl := List.mem_singleton.1 hk
    exact slot_of (by decide)

/-- OPEN_OK on a BULK session whose operation lives. -/
theorem wit_opened_bulk :
    let x := { sessIn .OG 2 with opId := 9 }
    let o : BulkOp := { BulkOp.recovery 0 with id := 9, state := .created, session := some 0 }
    let s : State := { talk x with mrn := { (talk x).mrn with ops := [o] } }
    onSlot s (plainPacket x 0 0 (leBytes 4 9)) 0x0004 0 ∧ (s.session 0).kind = 2 ∧ s.findOp (s.session 0).opId = some o ∧ o.live = true :=
  ⟨slot_of (by decide), rfl, by decide, by decide⟩

theorem wit_opened :
    let x := sessIn .OG
    onSlot (talk x) (plainPacket x 0 0 (leBytes 4 9)) 0x0004 0 ∧ onSlot (talk x) (plainPacket x 0 0 (leBytes 2 9)) 0x0005 0
      ∧ ((talk x).session 0).state = .OG ∧ ((talk x).session 0).opener = true ∧ ((talk x).session 0).kind = 1
      ∧ ((talk x).session 0).queued = [] ∧ ((talk x).session 0).txNext ≤ 2 ^ 48 - 258 ∧ (talk x).mrn.sessions.wf Session.fresh = true :=
  ⟨slot_of (by decide), slot_of (by decide), by decide, by decide, by decide, by decide, by decide, by decide⟩

/-- An ACK of the second of three messages, PROBE, RESYNC, RESYNC_ACK, CLOSE on a closing session and on an open one, and CLOSE_ACK. -/
theorem wit_control :
    (let x := sessIn .OP 1 [outMsg 1, outMsg 2, outMsg 3]
     let p : Packet := { plainPacket x 0 0 [] with flags := 1, ack := 2 }
     onSlot (talk x) p 0x0006 0 ∧ p.flags.getLsbD 0 = true ∧ p.flags.getLsbD 3 = false ∧ p.ack < x.txNext ∧ p.sack = 0
      ∧ (∀ m ∈ x.out, m.sacked = false ∧ m.above = 0)) ∧
    (let x := sessIn .OP
     onSlot (talk x) (plainPacket x 0 0 []) 0x0007 0 ∧ onSlot (talk x) (plainPacket x 0 0 (leBytes 4 2)) 0x0008 0 ∧ x.epoch < 2) ∧
    (let x := sessIn .RS
     onSlot (talk x) (plainPacket x 0 0 (leBytes 4 1)) 0x0009 0 ∧ x.epoch = 1) ∧
    (let x := sessIn .CG
     onSlot (talk x) (plainPacket x 0 0 []) 0x000A 0 ∧ onSlot (talk x) (plainPacket x 0 0 []) 0x000B 0
      ∧ (talk x).mrn.sessions.wf Session.fresh = true) ∧
    (let x := sess 0
     let y := { x with keyTx := [1] }
     onSlot (talk y) (packet y 0x000A 0 []) 0x000A 0 ∧ y.state = .OP ∧ hasKey y ∧ hasKey (sessIn .CG) ∧ hasKey (sessIn .RS) ∧ hasKey (sessIn .OP) ∧ (packet x 0x000A 0 []).flags.getLsbD 0 = false) :=
  ⟨⟨slot_of (by decide), by decide, by decide, by decide, by decide, by decide⟩, ⟨slot_of (by decide), slot_of (by decide), by decide⟩,
    ⟨slot_of (by decide), rfl⟩, ⟨slot_of (by decide), slot_of (by decide), by decide⟩, ⟨packet_slot rfl (by decide) (by decide), rfl, rfl, rfl, rfl, rfl, rfl⟩⟩

/-- A replacement table whose every cell moves to the next state on, with nothing to do. -/
def altTable : SessTable :=
  { version := 2, states := 7, events := 19, cells := List.replicate 19 ((List.range 7).map fun k => BitVec.ofNat 32 ((k + 6) % 7 * 2 ^ 28)),
    image := [], signed := true }

theorem wit_timers :
    (let x := { sessIn .OP 1 [outMsg 1] with unackedRx := 1 }
     ((talk x).session 0).state = .OP ∧ x.unackedRx ≠ 0 ∧ x.out.find? (fun m => !m.sacked) = some (outMsg 1)) ∧
    (let x := { sess 0 with state := .SU, deadRunning := true }
     (talk x).mrn.sessions.wf Session.fresh = true ∧ ((talk x).session 0).deadRunning = true ∧ ((talk x).session 0).state = .SU) ∧
    (∀ st ∈ [SessState.OG, .RS, .CG], ((talk (sessIn st)).session 0).state = st ∧ ((talk (sessIn st)).session 0).opener = true
      ∧ (talk (sessIn st)).mrn.sessions.wf Session.fresh = true) ∧
    (let s : State := { talk (sess 1) with mrn := { (talk (sess 1)).mrn with table := some altTable } }
     altTable.ok = true ∧ s.mrn.sessions.wf Session.fresh = true ∧ (altTable.cell 8 (s.session 0).state).acts = []
      ∧ (altTable.cell 8 (s.session 0).state).next ≠ (s.session 0).state) ∧ live.mrn.table = none ∧
    (let x := { sess 0 with state := .OG }
     ((talk x).session 0).kind = 0 ∧ ((talk x).session 0).state = .OG) ∧
    (sess 0).muted = true ∧ (sess 0).state = .OP ∧ (sessIn .OP).muted = false ∧ (∀ st ∈ [SessState.OG, .RS, .CG], (sessIn st).muted = false) := by
  decide +kernel

/-! ### Membership -/

/-- A ROSTER of one part without runs. -/
def rosterBytes : Bytes := leBytes 4 3 ++ leBytes 1 1 ++ leBytes 1 2 ++ leBytes 2 4 ++ zeros 0x2A ++ leBytes 2 1 ++ zeros 12
def roster : RosterPart := (rosterPart rosterBytes).getD (default)

theorem wit_membership :
    (let x := sessIn .OP
     inSequence (talk x) (packet x 0x0200 1 rosterBytes) 0x0200 0 ∧ x.opener = true ∧ (talk x).mgr.plan = none
      ∧ (∀ kv ∈ (talk x).mrn.sessions, kv.2.kind ≠ 3) ∧ (talk x).job.unsent = [] ∧ rosterPart rosterBytes = some roster ∧ roster.parts = 1
      ∧ (talk x).trd.parts = [] ∧ runsOf [(roster.schedFirst, roster.sched)] = some [] ∧ runsOf [(roster.memFirst, roster.mem)] = some []
      ∧ bit (leAt rosterBytes 0x14 4) 0 = false ∧ bit (leAt rosterBytes 0x14 4) 1 = false
      ∧ inSequence (talk x) (packet x 0x0202 1 (zeros 16)) 0x0202 0 ∧ inSequence (talk x) (packet x 0x0203 1 (zeros 16)) 0x0203 0) ∧
    (let x := { sess 1 with rank := 2 }
     let pl : Plan := { (default : Plan) with top := true }
     let m : Member := { (default : Member) with rank := 2, addrA := 5 }
     let s : State := { talk x with mgr := { live.mgr with plan := some pl, members := [m] } }
     let b := leBytes 2 7 ++ zeros 22
     inSequence s (packet x 0x0204 1 b) 0x0204 0 ∧ x.opener = false ∧ s.mgr.plan = some pl ∧ pl.top = true ∧ pl.trunk = false
      ∧ s.sessionMember x = some m ∧ leAt b 0 2 = 7 ∧ s.mgr.state ≠ .held) ∧
    (let x := sess 1
     let pl : Plan := { (default : Plan) with top := false }
     let y := { sessIn .OP with id := 8, addr := 6 }
     let s : State := { live with mgr := { live.mgr with plan := some pl }, mrn := { live.mrn with sessions := [(0, x), (1, y)] } }
     inSequence s (packet x 0x0201 1 (zeros 32)) 0x0201 0 ∧ x.opener = false ∧ s.mgr.plan = some pl ∧ pl.top = false
      ∧ s.topSession = some 1) :=
  ⟨⟨packet_seq rfl (by decide) (by decide) (by decide), rfl, by decide, by decide, by decide, by decide, by decide, by decide, by decide,
      by decide, by decide, by decide, packet_seq rfl (by decide) (by decide) (by decide), packet_seq rfl (by decide) (by decide) (by decide)⟩,
    ⟨packet_seq rfl (by decide) (by decide) (by decide), rfl, rfl, rfl, rfl, by decide, by decide, by decide⟩,
    ⟨packet_seq rfl (by decide) (by decide) (by decide), rfl, rfl, rfl, by decide⟩⟩

theorem wit_membership_timers :
    (talk (sessIn .OP)).mgrSession = some 0 ∧
    (let s : State := { live with mgr := { live.mgr with collateral := true } }
     s.mgr.collateral = true ∧ s.mgr.state ≠ .held) ∧
    (let m : Member := { (default : Member) with rank := 2, ring := 1, pos := 3, state := 4 }
     let s : State := { live with mgr := { live.mgr with members := [m], selRing := 1, selPos := 3 } }
     s.memberAt s.mgr.selRing s.mgr.selPos = some m ∧ m.state = 4 ∧ s.mgr.plan.map (·.top) ≠ some true) ∧
    (let m : Member := { (default : Member) with rank := 2, ring := 1, pos := 3, state := 4 }
     let pl : Plan := { (default : Plan) with top := true }
     let s : State := { live with mgr := { live.mgr with members := [m], selRing := 1, selPos := 3, plan := some pl } }
     s.memberAt s.mgr.selRing s.mgr.selPos = some m ∧ m.state = 4 ∧ s.mgr.plan.map (·.top) = some true) := by
  decide

/-! ### CONTROL commands and long operations -/

/-- A module with one CONTROL session, in its first boot. -/
def host (s : State) : State := { s with mrn := { s.mrn with bootCount := 1, sessions := [(0, sess 0)] } }
/-- A command of serial 1 of origin 1 with an envelope that names the boot and a job serial. -/
def cmdId : W64 := 0x0000010000000001
def command (typ job : Nat) (b : Bytes) : Packet := packet (sess 0) typ 1 (leBytes 4 1 ++ leBytes 4 job ++ b) cmdId

def firstTest (s : State) (p : Packet) (typ i : Nat) : Bool :=
  let x := s.session i
  x.kind == 0 && x.due.isEmpty && s.sessionById x.id == some i && (s.mrn.cache.find? (fun e => e.cmd == p.cmd)).isNone
    && decide (s.mrn.cache.length < cacheSize) && s.mrn.admission.isEmpty && s.job.attests.isEmpty && !s.expired p.cmd
    && decide (s.mrn.origins.length < 64) && (s.envelopeError typ p.payload).isNone

theorem first_of {s : State} {p : Packet} {typ i : Nat} (h : inSequence s p typ i) (hf : firstTest s p typ i = true) :
    firstCopy s p typ i := by
  simp only [firstTest, Bool.and_eq_true, Bool.not_eq_true', beq_iff_eq, decide_eq_true_eq, List.isEmpty_iff, Option.isNone_iff_eq_none] at hf
  obtain ⟨⟨⟨⟨⟨⟨⟨⟨⟨a, b⟩, c⟩, d⟩, e⟩, f⟩, g⟩, j⟩, k⟩, l⟩ := hf
  exact ⟨h, a, b, c, d, e, f, g, j, .inr k, l⟩

theorem command_seq {s : State} {typ job : Nat} {b : Bytes} (hx : s.session 0 = sess 0)
    (h : slotTest s (plainPacket (sess 0) 1 cmdId (leBytes 4 1 ++ leBytes 4 job ++ b)) typ 0 = true)
    (hs : seqTest s (plainPacket (sess 0) 1 cmdId (leBytes 4 1 ++ leBytes 4 job ++ b)) typ 0 = true)
    (hn : numbersLeft s := by first | exact numbersLeft_of (by decide) | exact numbersLeft_of rfl) : inSequence s (command typ job b) typ 0 := packet_seq hx (by decide) h hs hn

/-- A second copy of a completed command, and a command with a known id and other content. -/
theorem wit_exactly_once :
    let p := command 0x0100 0 []
    let s (d : Bytes) : State := { host live with mrn := { (host live).mrn with cache := [⟨cmdId, d, false, 0, []⟩] } }
    sequencedRow (.identify p) = some (p, 0x0100) ∧ (∀ d, inSequence (s d) p 0x0100 0)
      ∧ (∀ d, ((s d).session 0).due = [] ∧ (s d).sessionById ((s d).session 0).id = some 0 ∧ (s d).mrn.admission = [] ∧ (s d).job.attests = []
          ∧ (s d).mrn.cache.find? (fun e => e.cmd == p.cmd) = some ⟨cmdId, d, false, 0, []⟩)
      ∧ cmdDigest 0x0100 p.payload ≠ [] := by
  refine ⟨rfl, fun d => command_seq rfl rfl rfl (numbersLeft_of (by show ([(0, sess 0)].all fun e => _) = true; decide)), fun d => ⟨rfl, rfl, rfl, rfl, rfl⟩, ?_⟩
  intro h
  have := congrArg List.length h
  simp only [cmdDigest, shake256, sponge_length, List.length_nil] at this
  omega

/-- IDENTIFY, REG_READ of one word and of 64, REG_WRITE to a read-only word, SUBSCRIBE to the last page. -/
theorem wit_plain_commands :
    let s := host live
    let at_ (n : Nat) := leBytes 8 registerBase ++ leBytes 4 n
    firstCopy s (command 0x0100 0 []) 0x0100 0 ∧
    (∀ n ∈ [1, 64], firstCopy s (command 0x0101 0 (at_ n)) 0x0101 0 ∧ (command 0x0101 0 (at_ n)).payload.length = 20
      ∧ s.accessError registerBase n = none) ∧
    (let p := command 0x0102 0 (at_ 1 ++ zeros 4)
     let w := State.writeWords 0 p.cmd (p.payload.drop 20) 0 1 (running s p 0x0102 0)
     firstCopy s p 0x0102 0 ∧ p.payload.length = 20 + 4 * 1 ∧ w.trust.fuses.lc = s.trust.fuses.lc ∧ w.mrn.admission = []
      ∧ w.job.attests = []) ∧
    (let p := command 0x0103 0 (leBytes 4 4793 ++ zeros 4)
     firstCopy s p 0x0103 0 ∧ p.payload.length = 16 ∧ leAt p.payload 8 4 < pageCount) := by
  refine ⟨first_of (command_seq rfl (by decide) (by decide)) (by decide), ?_, ⟨?_, by decide, by decide +kernel, by decide +kernel, by decide +kernel⟩, ?_, by decide, by decide +kernel⟩
  · intro n hn
    rcases List.mem_cons.1 hn with rfl | hn
    · exact ⟨first_of (command_seq rfl (by decide +kernel) (by decide +kernel)) (by decide +kernel), by decide +kernel, by decide +kernel⟩
    · obtain rfl := List.mem_singleton.1 hn
      exact ⟨first_of (command_seq rfl (by decide +kernel) (by decide +kernel)) (by decide +kernel), by decide +kernel, by decide +kernel⟩
  · exact first_of (command_seq rfl (by decide +kernel) (by decide +kernel)) (by decide +kernel)
  · exact first_of (command_seq rfl (by decide +kernel) (by decide +kernel)) (by decide +kernel)

/-- The smallest job: no stations, no mapping; and a module that can load it. -/
def bundle : JobBundle :=
  { plan := none, images := [], header := none, tables := default, records := [], groups := [], entry := none, seeds := [], events := [], ckpt := none, data := [] }
def bundleOp (obj : BulkObj) (sends : Bool) (st : BulkState) : BulkOp :=
  { BulkOp.recovery 0 with id := 9, obj := obj, sends := sends, state := st }
/-- The jobless module, in life cycle OWNED, with the operation that has received the bundle. -/
def empty : State :=
  { host live with
    job := Job.reset, dies := [(0, ⟨true, true⟩), (1, ⟨true, true⟩), (2, ⟨true, true⟩), (3, ⟨true, true⟩)]
    trd := { live.trd with link := .synced }
    mrn := { (host live).mrn with ops := [bundleOp .jobBundle false .done] }
    trust := { live.trust with fuses := { live.trust.fuses with lc := 2 } } }

theorem wit_job_load :
    let p := command 0x0104 0 (leBytes 8 9)
    empty.job.bundles = [] ∧ firstCopy { empty with job := { empty.job with bundles := [⟨p.cmd, bundle⟩] } } p 0x0104 0
      ∧ p.payload.length = 16 ∧ empty.findOp (BitVec.ofNat 64 (leAt p.payload 8 8)) = some (bundleOp .jobBundle false .done)
      ∧ (running { empty with job := { empty.job with bundles := [] } } p 0x0104 0).loadRefusal bundle = none ∧ bundle.plan = none
      ∧ (∀ d, d < 4 → (empty.die d).awake = true) ∧ empty.clearing = false ∧ bundle.records = [] :=
  ⟨rfl, first_of (command_seq rfl (by decide +kernel) (by decide +kernel)) (by decide +kernel), by decide, by decide +kernel,
    by decide +kernel, rfl, by decide, by decide, rfl⟩

theorem wit_job_unload : firstCopy (host live) (command 0x0105 1 []) 0x0105 0 ∧ (host live).snap.state ≠ .opened :=
  ⟨first_of (command_seq rfl (by decide +kernel) (by decide +kernel)) (by decide +kernel), by decide⟩

/-- The payload of BULK_CREATE after the envelope. -/
def create (dir obj : Nat) : Bytes := leBytes 1 dir ++ leBytes 1 obj ++ zeros 1 ++ zeros 16 ++ leBytes 2 0x8000 ++ zeros 16

theorem wit_bulk_create :
    (firstCopy (host live) (command 0x0106 1 (create 0 1)) 0x0106 0 ∧ 29 ≤ (command 0x0106 1 (create 0 1)).payload.length) ∧
    (∀ k ∈ [2, 3, 4], let p := command 0x0106 0 (create 1 k)
      firstCopy empty p 0x0106 0 ∧ leAt p.payload 10 1 ≤ 1 ∧ leAt p.payload 9 1 = k ∧ leAt p.payload 8 1 = 1 ∧ 45 ≤ p.payload.length) ∧
    empty.trust.tamper = 0 ∧ empty.job.state = .none ∧
    (let s : State := { host live with trace := { live.trace with held := some (5, 64) } }
     ∀ k ∈ [5, 6], let p := command 0x0106 0 (create 0 k)
      firstCopy s p 0x0106 0 ∧ leAt p.payload 10 1 ≤ 1 ∧ leAt p.payload 9 1 = k ∧ leAt p.payload 8 1 = 0 ∧ 29 ≤ p.payload.length
        ∧ s.trace.held = some (5, 64) ∧ s.isX = true ∧ s.bad = [] ∧ s.mrn.ops = []) := by
  refine ⟨⟨first_of (command_seq rfl (by decide +kernel) (by decide +kernel)) (by decide +kernel), by decide⟩, ?_, by decide, by decide, ?_⟩
  · intro k hk
    simp only [List.mem_cons, List.not_mem_nil, or_false] at hk
    rcases hk with rfl | rfl | rfl
    all_goals exact ⟨first_of (command_seq rfl (by decide +kernel) (by decide +kernel)) (by decide +kernel), by decide, by decide, by decide, by decide⟩
  · intro s k hk
    simp only [List.mem_cons, List.not_mem_nil, or_false] at hk
    rcases hk with rfl | rfl
    all_goals exact ⟨first_of (command_seq rfl (by decide +kernel) (by decide +kernel)) (by decide +kernel), by decide, by decide, by decide,
      by decide, rfl, by decide, rfl, rfl⟩

theorem wit_ending_commands :
    (let s : State := { host live with mrn := { (host live).mrn with ops := [bundleOp .jobBundle false .created] } }
     let p := command 0x0107 0 (leBytes 8 9)
     firstCopy s p 0x0107 0 ∧ p.payload.length = 16
      ∧ s.findOp (BitVec.ofNat 64 (leAt p.payload 8 8)) = some (bundleOp .jobBundle false .created)
      ∧ (bundleOp .jobBundle false .created).live = true ∧ (bundleOp .jobBundle false .created).window = []) ∧
    (firstCopy (host live) (command 0x0108 1 (zeros 4)) 0x0108 0 ∧ (command 0x0108 1 (zeros 4)).payload.length = 12
      ∧ (host live).trace.held = none ∧ (host live).trace.phase = .armed) ∧
    (firstCopy empty (command 0x0109 0 (zeros 32)) 0x0109 0 ∧ (command 0x0109 0 (zeros 32)).payload.length = 40
      ∧ empty.trust.fuses.lc ≠ 0 ∧ empty.jobBusy = false) :=
  ⟨⟨first_of (command_seq rfl (by decide +kernel) (by decide +kernel)) (by decide +kernel), by decide, by decide +kernel, by decide, rfl⟩,
    ⟨first_of (command_seq rfl (by decide +kernel) (by decide +kernel)) (by decide +kernel), by decide, rfl, rfl⟩,
    ⟨first_of (command_seq rfl (by decide +kernel) (by decide +kernel)) (by decide +kernel), by decide, by decide, by decide⟩⟩

/-- An operation on a BULK session. -/
def onBulk (o : BulkOp) : State :=
  let x := { sess 2 with opId := 9 }
  { talk x with mrn := { (talk x).mrn with ops := [{ o with state := .bound, session := some 0 }] } }

/-- A chunk of one byte, the end of an empty object, a journal report, an abort. -/
theorem wit_bulk_messages :
    let x := { sess 2 with opId := 9 }
    let id := leBytes 8 9
    let rx := bundleOp .jobBundle false .bound
    let tx : BulkOp := { bundleOp .snapshot true .bound with sent := 8, top := 8, ended := some (8, 0), length := 8 }
    (let b := id ++ zeros 8 ++ leBytes 4 0x527D5351 ++ leBytes 4 1 ++ [0]
     inSequence (onBulk rx) (packet x 0x0300 1 b) 0x0300 0 ∧ (onBulk rx).opOn 0 b = some { rx with session := some 0 }
      ∧ b.drop 24 = [0] ∧ leAt b 20 4 = 1 ∧ leAt b 8 8 % 8192 = 0 ∧ rx.length = 0) ∧
    (let b := id ++ zeros 12
     inSequence (onBulk rx) (packet x 0x0302 1 b) 0x0302 0 ∧ (onBulk rx).opOn 0 b = some { rx with session := some 0 }
      ∧ leAt b 8 8 ≤ rx.journal ∧ (crc32c (rx.bytes 0 (leAt b 8 8))).toNat = leAt b 16 4) ∧
    (let b := id ++ leBytes 8 8
     inSequence (onBulk tx) (packet x 0x0301 1 b) 0x0301 0 ∧ (onBulk tx).opOn 0 b = some { tx with session := some 0 }
      ∧ tx.journal ≤ leAt b 8 8 ∧ leAt b 8 8 ≤ tx.top ∧ tx.ended.isSome = true ∧ tx.length ≤ leAt b 8 8) ∧
    (let b := id ++ zeros 8
     inSequence (onBulk rx) (packet x 0x0303 1 b) 0x0303 0 ∧ (onBulk rx).opOn 0 b = some { rx with session := some 0 } ∧ rx.window = []) :=
  ⟨⟨packet_seq rfl (by decide) (by decide +kernel) (by decide +kernel), by decide +kernel, by decide +kernel, by decide, by decide, rfl⟩,
    ⟨packet_seq rfl (by decide) (by decide +kernel) (by decide +kernel), by decide +kernel, by decide, by decide +kernel⟩,
    ⟨packet_seq rfl (by decide) (by decide +kernel) (by decide +kernel), by decide +kernel, by decide, by decide, rfl, by decide⟩,
    ⟨packet_seq rfl (by decide) (by decide +kernel) (by decide +kernel), by decide +kernel, rfl⟩⟩

theorem wit_bulk_timers :
    (let o := bundleOp .jobBundle false .held
     let s : State := { live with mrn := { live.mrn with ops := [o] } }
     s.findOp 9 = some o ∧ o.state = .held ∧ o.session = none ∧ o.window = []) ∧
    (let o := bundleOp .snapshot true .held
     let s : State := { live with mrn := { live.mrn with ops := [o] } }
     s.findOp 9 = some o ∧ s.kindFull 2 o.plane = false ∧ s.mrn.sessions = []
      ∧ s.mrn.sessions.find (s.freeSlot (planeEngine o.plane)) = none) ∧
    (let o : BulkOp := { bundleOp .jobBundle false .bound with session := some 0, journal := 3 }
     (onBulk o).findOp 9 = some o ∧ o.journal ≠ o.journalSent ∧ (onBulk o).mrn.table = none ∧ numbersLeft (onBulk o)) :=
  ⟨by decide +kernel, by decide +kernel, by decide +kernel, by decide +kernel, rfl, numbersLeft_of (by decide)⟩

/-! ### Collectives -/

theorem slot_any {s : State} {x : Session} {typ seq i : Nat} {cmd : W64} {b : Bytes} (hb : b.length ≤ 8960) (ht : typ ≠ 1)
    (h : slotTest s (plainPacket x seq cmd []) typ i = true) : slotTest s (plainPacket x seq cmd b) typ i = true := by
  have hm : (plainPacket x seq cmd b).malformed typ = (plainPacket x seq cmd []).malformed typ := by
    have h1 : (typ == 1) = false := by simp [ht]
    have h2 : ¬ 8960 < b.length := by omega
    simp [Packet.malformed, plainPacket, h1, h2]
  have hk : s.takesPackets (plainPacket x seq cmd b) typ = s.takesPackets (plainPacket x seq cmd []) typ := by
    have h1 : (typ != 1) = true := by simp [ht]
    simp only [State.takesPackets, plainPacket, h1, Bool.true_or]
    rfl
  simp only [slotTest, hm, hk] at h ⊢
  exact h

theorem seq_any {s : State} {x : Session} {typ seq i : Nat} {cmd : W64} {b : Bytes} (ht : typ ≠ 0x0300)
    (h : seqTest s (plainPacket x seq cmd []) typ i = true) : seqTest s (plainPacket x seq cmd b) typ i = true := by
  have ht' : (typ == 0x0300) = false := by simp [ht]
  simp only [seqTest, badChunk, plainPacket, ht', Bool.false_and] at h ⊢
  exact h

/-- A PEER session to rank 2, and a job with one collective record of id 4, in which that rank and this module, of rank 3, take part and
which runs its first instance. -/
def peer : Session := { sess 3 with rank := 2 }
def coll (kind tiles : Nat) (group : List Chunk) : CollRec :=
  { (default : CollRec) with kindCode := kind, inFmt := Fmt.n8.code, tensor := 7, group := group, mult := 1, id := 4, station := 1,
                             width := 64, tiles := tiles }
def running1 : CollRun := { CollRun.reset with inst := 1, active := true }
def collecting (r : CollRec) (u : CollRun := running1) : State :=
  { talk peer with job := { live.job with mapping := some { mapping with rank := 3 }, colls := [r], runs := [(0, u)] } }

/-- TILE_SEG of tile 0, its only contribution, instance 1: `len` bytes in all, `img` from offset 0. -/
def segHead (len n : Nat) : Bytes :=
  leBytes 2 4 ++ zeros 2 ++ leBytes 1 0 ++ zeros 3 ++ leBytes 8 1 ++ leBytes 4 0 ++ leBytes 4 0 ++ leBytes 4 len ++ leBytes 2 n ++ zeros 2

def collAccept (r : CollRec) (fmt tile : Nat) (d : Desc) : Option W16 :=
  let off := r.kind == some .send || r.kind == some .recv
  if d.format != fmt || d.tensor != r.tensor || (!off && d.row * r.across + d.col != tile) then some 0x0520 else none

theorem checkColl_elements {r : CollRec} {fmt tile : Nat} {img : Bytes} {d : Desc} {v : Tile} (hh : checkHead img = .ok d) (h : fmt ≠ 0x30)
    (ha : collAccept r fmt tile d = none) (hv : checkTile img (collAccept r fmt tile) = .ok v) :
    checkColl r fmt tile img = .ok (.elements v) := by
  have e : checkColl r fmt tile img = (match checkHead img with
      | .error f => .error f
      | .ok d =>
        match collAccept r fmt tile d with
        | some c => .error (d.fail c 0)
        | none =>
          if fmt == 0x30 then
            (match checkXf img none with
             | .error f => .error f
             | .ok (d, hs) => .ok (.transfer d (hs.getD 0 none) (hs.getD 1 none)))
          else
            (match checkTile img (collAccept r fmt tile) with
             | .error f => .error f
             | .ok t => .ok (.elements t))) := rfl
  rw [e]
  simp only [hh, ha, hv]
  rw [if_neg (by simp [h])]

theorem collecting_tile (tiles : Nat) (group : List Chunk) :
    ∃ ct, checkColl (coll 2 tiles group) Fmt.n8.code 0 (zeroTile .n8 0) = .ok ct := by
  have ha : ∀ c, collAccept (coll 2 tiles group) Fmt.n8.code 0
      ⟨Fmt.n8.code, 0, false, 0, 1, 7, 0, 0, 0, Fmt.payloadLen .n8, 0, c, zeros 16⟩ = none := fun c => by simp [collAccept, coll]
  obtain ⟨c, hc⟩ := parse_zeroTile .n8 0 (by decide)
  obtain ⟨v, hv, -⟩ := zeroTile_ok .n8 0 _ (by decide) (by decide) ha
  exact ⟨_, checkColl_elements (checkHead_zeroTile .n8 0 (by decide) (by decide)) (by decide) (by rw [hc]; exact ha c) hv⟩

theorem segParse (img : Bytes) (h : img.length = 4544) :
    Seg.parse (segHead 4544 4544 ++ img) = ⟨4, false, 0, 1, 0, 0, 4544, img⟩ := by
  have hh : (segHead 4544 4544).length = 32 := rfl
  have hd : (segHead 4544 4544 ++ img).drop 32 = img := by
    rw [List.drop_append_of_le_length (by omega), List.drop_eq_nil_of_le (by omega), List.nil_append]
  have h1 : ∀ k n, k + n ≤ 32 → leAt (segHead 4544 4544 ++ img) k n = leAt (segHead 4544 4544) k n := fun k n hk => leAt_append (by omega)
  simp only [Seg.parse, hd]
  repeat rw [h1 _ _ (by decide)]
  have hb : ∀ l : Nat, img.take l = img ∨ l < 4544 := by
    intro l
    by_cases hl : 4544 ≤ l
    · exact .inl (List.take_of_length_le (by omega))
    · exact .inr (by omega)
  have h28 : leAt (segHead 4544 4544) 28 2 = 4544 := by decide +kernel
  rw [h28, (hb 4544).resolve_right (by omega)]
  congr 1

/-- The record of an ALL_GATHER in which tile 0 comes from the peer, with one tile or two; a whole image of tile 0 and a part of one. -/
theorem wit_tile_seg :
    (∀ tiles ∈ [1, 2],
      let r := coll 2 tiles [⟨2, 0, tiles⟩, ⟨3, 2, 2⟩]
      let s := collecting r
      let b := segHead 4544 4544 ++ zeroTile .n8 0
      let g := Seg.parse b
      (s.run 0).opened = [] ∧ toInstance s (packet peer 0x0400 1 b) 0x0400 0 0 r g.id g.inst ∧ g.gather = false
        ∧ s.otherRuns 0 = [] ∧ s.segFits r (s.run 0) 2 g = true ∧ (s.run 0).lenDiffers 2 g = false ∧ (s.run 0).done.contains g.tile = false
        ∧ (∃ l, placeSeg (s.run 0).segs 2 g = .whole (zeroTile .n8 0) l) ∧ r.kind = some .allGather
        ∧ (∃ ct, checkColl r r.inFmt g.tile (zeroTile .n8 0) = .ok ct)) ∧
    (let r := coll 2 2 [⟨2, 0, 2⟩, ⟨3, 2, 2⟩]
     let s := collecting r
     let b := segHead 4544 1 ++ [0]
     let g := Seg.parse b
     toInstance s (packet peer 0x0400 1 b) 0x0400 0 0 r g.id g.inst ∧ g.gather = false ∧ s.segFits r (s.run 0) 2 g = true
      ∧ ∃ l, placeSeg (s.run 0).segs 2 g = .part l) := by
  have hl : (zeroTile .n8 0).length = 4544 := zeroTile_length _ _
  constructor
  · intro tiles ht r s b g
    have hg : g = ⟨4, false, 0, 1, 0, 0, 4544, zeroTile .n8 0⟩ := segParse _ hl
    have hb : b.length ≤ 8960 := by
      show (segHead 4544 4544 ++ zeroTile .n8 0).length ≤ 8960
      rw [List.length_append, hl]; decide
    have hp : placeSeg [] 2 g = .whole (zeroTile .n8 0) [] := by
      rw [hg]
      have hfit : fitBytes 4544 (patch [] 0 (zeroTile .n8 0)) = zeroTile .n8 0 := by
        have : patch [] 0 (zeroTile .n8 0) = zeroTile .n8 0 := by simp [patch, fitBytes, zeros]
        rw [this]
        exact fitBytes_self hl
      simp [placeSeg, hl, hfit]
    have hseq : inSequence s (packet peer 0x0400 1 b) 0x0400 0 :=
      packet_seq rfl (by decide) (slot_any hb (by decide) rfl) (seq_any (by decide) rfl) (numbersLeft_of (by show ([(0, peer)].all fun e => _) = true; decide))
    simp only [List.mem_cons, List.not_mem_nil, or_false] at ht
    rw [hg]
    rcases ht with rfl | rfl
    all_goals
      exact ⟨rfl, ⟨hseq, rfl, by decide, rfl, rfl⟩, rfl, by decide, by decide, rfl, rfl, ⟨_, hg ▸ hp⟩, by decide, collecting_tile _ _⟩
  · exact ⟨⟨packet_seq rfl (by decide) (by decide +kernel) (by decide +kernel), rfl, by decide +kernel, rfl, by decide +kernel⟩, by decide, by decide +kernel,
      _, rfl⟩

/-- GRANT of the peer's tile 0 with its tile 1 to send yet; COUNT of 0 images short of and at the largest number. -/
theorem wit_grant_count :
    (let r := coll 1 3 [⟨2, 0, 2⟩, ⟨3, 2, 1⟩]
     let s := collecting r { running1 with done := [2] }
     let b := leBytes 2 4 ++ leBytes 8 1 ++ leBytes 4 0 ++ leBytes 4 1
     (s.run 0).opened = [] ∧ s.otherRuns 0 = [] ∧ toInstance s (packet peer 0x0402 1 b) 0x0402 0 0 r (leAt b 0 2) (leAt b 2 8) ∧ r.kind = some .reduceScatter
      ∧ leAt b 14 4 = 1 ∧ 0 < r.tiles ∧ r.owner (leAt b 10 4) = some 2 ∧ (s.run 0).sent.contains (leAt b 10 4) = false
      ∧ s.nextGrant 0 r = none ∧ (1 < r.tiles ∧ r.owner 1 ≠ some s.ownRank ∧ 1 ≠ leAt b 10 4 ∧ 1 ∉ (s.run 0).sent) ∧ r.mult = 1
      ∧ (s.imageAt (r.src + leAt b 10 4 * r.srcStride)).length = 64 ∧ s.peerSession 2 (tilePlane s (leAt b 10 4)) = some 0) ∧
    (∀ n ∈ [1, 65535], let r := coll 5 0 [⟨2, 0, 0⟩, ⟨3, 0, 0⟩]
     let s := collecting r
     let b := leBytes 2 4 ++ leBytes 8 1 ++ leBytes 4 n
     (s.run 0).opened = [] ∧ s.otherRuns 0 = [] ∧ toInstance s (packet peer 0x0407 1 b) 0x0407 0 0 r (leAt b 0 2) (leAt b 2 8) ∧ r.kind = some .recv
      ∧ leAt b 10 4 = n ∧ (s.run 0).done = []) := by
  constructor
  · exact ⟨rfl, rfl, ⟨packet_seq rfl (by decide) (by decide +kernel) (by decide +kernel), rfl, by decide +kernel, rfl, by decide +kernel⟩, rfl,
      by decide, by decide, by decide, by decide, by decide +kernel, by decide, rfl, by decide +kernel, by decide⟩
  · intro n hn
    simp only [List.mem_cons, List.not_mem_nil, or_false] at hn
    rcases hn with rfl | rfl
    all_goals exact ⟨rfl, rfl, ⟨packet_seq rfl (by decide) (by decide +kernel) (by decide +kernel), rfl, by decide +kernel, rfl, by decide +kernel⟩,
      rfl, by decide +kernel, rfl⟩

/-- The requests of a peer: a resend, a retry, a gather of a generation that is held and of one that is not, VERSION_GONE, ABORT; and
a gather of its own. -/
theorem wit_requests :
    (let r := coll 2 2 [⟨2, 0, 1⟩, ⟨3, 1, 1⟩]
     let s := collecting r
     let b := leBytes 2 4 ++ leBytes 8 1 ++ leBytes 4 1 ++ leBytes 1 0
     inSequence s (packet peer 0x0401 1 b) 0x0401 0 ∧ s.jobLive = true ∧ s.collOf (leAt b 0 2) 2 = some (0, r)
      ∧ s.startedInst 0 (leAt b 2 8) = true ∧ leAt b 14 1 < r.mult ∧ s.sendRefused r (leAt b 10 4) = none ∧ (s.imageAt (s.sourceOf r (leAt b 14 1) (leAt b 10 4))).length = 64
      ∧ s.peerSession 2 (tilePlane s (leAt b 10 4)) = some 0) ∧
    (let r := coll 1 2 [⟨2, 0, 1⟩, ⟨3, 1, 1⟩]
     let s := collecting r
     let b := leBytes 2 4 ++ leBytes 8 1 ++ leBytes 4 0
     inSequence s (packet peer 0x0403 1 b) 0x0403 0 ∧ s.jobLive = true ∧ s.collOf (leAt b 0 2) 2 = some (0, r)
      ∧ s.startedInst 0 (leAt b 2 8) = true ∧ r.mult = 1 ∧ r.owner (leAt b 10 4) = some 2
      ∧ (s.imageAt (r.src + leAt b 10 4 * r.srcStride)).length = 64) ∧
    (let e : TensorEntry := { (default : TensorEntry) with tensor := 7, tiles := 1 }
     let m := { mapping with rank := 3, tensors := [e] }
     let s : State := { talk peer with job := { live.job with mapping := some m } }
     ∀ g ∈ [0, 9], let b := leBytes 8 5 ++ leBytes 4 7 ++ leBytes 2 g ++ leBytes 4 0
      inSequence s (packet peer 0x0404 1 b) 0x0404 0 ∧ s.jobLive = true ∧ (g = 9 → s.gatherSlot (leAt b 12 2) = none)
        ∧ (g = 0 → s.gatherSlot (leAt b 12 2) = some 0) ∧ s.genKnot = some 40 ∧ s.job.mapping = some m
        ∧ m.tensors.find? (fun e => e.tensor == leAt b 8 4) = some e ∧ b.length = 18 ∧ s.peerSession 2 0 = some 0
        ∧ (s.imageAt (m.areas.getD 0 0 + e.fwdOff + leAt b 14 4 * e.stride)).length = 64) ∧
    (let x : Gather := { (default : Gather) with id := 5, owner := 2, knot := 5, pin := some 40 }
     let s : State := { talk peer with job := { live.job with mapping := none, gathers := [x] } }
     inSequence s (packet peer 0x0405 1 (leBytes 8 5)) 0x0405 0 ∧ s.jobLive = true ∧ s.genKnot = none ∧ s.knots.wf Knot.reset = true
      ∧ s.job.gathers.find? (fun x => x.id == leAt (leBytes 8 5) 0 8 && x.owner == 2) = some x) ∧
    (let r := coll 2 2 [⟨2, 0, 1⟩, ⟨3, 1, 1⟩]
     let b := leBytes 2 4 ++ zeros 14
     inSequence (collecting r) (packet peer 0x0406 1 b) 0x0406 0 ∧ (collecting r).jobLive = true
      ∧ (collecting r).collOf (leAt b 0 2) 2 = some (0, r)
      ∧ (let s : State := { talk peer with job := Job.reset }
         inSequence s (packet peer 0x0406 1 b) 0x0406 0 ∧ s.jobLive = false)) ∧
    (let g : GatherIssue := { (default : GatherIssue) with owner := 2, tensor := 7, gen := 9, tiles := [(0, 0x100000)], knot := 5 }
     let s := collecting (coll 2 2 [])
     s.jobLive = true ∧ s.paused = false ∧ s.gatherSlot g.gen = none ∧ g.owner ≤ s.ownRank ∧ s.peerSession g.owner 0 = some 0) := by
  refine ⟨⟨packet_seq rfl (by decide) (by decide +kernel) (by decide +kernel), rfl, by decide +kernel, by decide +kernel, by decide, by decide +kernel,
      by decide +kernel, by decide⟩,
    ⟨packet_seq rfl (by decide) (by decide +kernel) (by decide +kernel), rfl, by decide +kernel, by decide +kernel, rfl, by decide, by decide +kernel⟩, ?_,
    ⟨packet_seq rfl (by decide) (by decide +kernel) (by decide +kernel), rfl, rfl, by decide +kernel, by decide +kernel⟩,
    ⟨packet_seq rfl (by decide) (by decide +kernel) (by decide +kernel), rfl, by decide +kernel,
      packet_seq rfl (by decide) (by decide +kernel) (by decide +kernel), rfl⟩, by decide +kernel⟩
  intro e m s g hg
  simp only [List.mem_cons, List.not_mem_nil, or_false] at hg
  rcases hg with rfl | rfl
  all_goals exact ⟨packet_seq rfl (by decide) (by decide +kernel) (by decide +kernel), rfl, by decide +kernel, by decide +kernel, rfl, rfl,
    by decide +kernel, rfl, by decide, by decide +kernel⟩

theorem wit_instances :
    (let r := { coll 5 0 [⟨2, 0, 0⟩, ⟨3, 0, 0⟩] with trigKnot := 5, trigInc := 9 }
     let s := collecting r CollRun.reset
     s.collRec 0 = some r ∧ s.jobLive = true ∧ s.paused = false ∧ (s.run 0).active = false ∧ s.collTriggered r ((s.run 0).inst + 1) = true
      ∧ s.collTriggered r ((s.run 0).inst + 2) = false ∧ r.kind = some .recv ∧ (s.run 0).early = [] ∧ s.otherRuns 0 = []) ∧
    (let r := coll 5 0 [⟨2, 0, 0⟩, ⟨3, 0, 0⟩]
     (collecting r).collRec 0 = some r ∧ ((collecting r).run 0).active = true) := by
  decide +kernel

/-! ### Ethernet and memory health -/

/-- Port 0 is up; a UDP frame to its address. -/
def wired (p : Port := { Port.reset with linkUp := true, fecLock := true, ipv4 := 0x0A000001 }) : State :=
  { live with ports := [(0, p)] }
def udpFrame : Frame :=
  { port := 0, length := 128, fcsOk := true, vids := [], dst := 2 ^ 48 - 1, srcMac := 0x02AABBCCDDEE, srcIp := 0x0A0000FE, use_ := .udp, ipv6 := false, ipOptions := false,
    fragmented := false, dstIp := 0x0A000001, ce := true, csumOk := true, csumZero := false, dstPort := 0xB038, kind := 0, uncorrected := 0,
    corrected := 3, foreign := none }

/-- One frame for each fate, the shortest and the longest that are taken, and those one byte beyond. -/
theorem wit_ethernet :
    (wired.power.pg = true ∧ wired.pagePresent (pgETH 0) = true ∧ (wired.port 0).linkUp = true ∧ (wired.port 0).fecLock = true
      ∧ (wired.page (pgETH 0)).ctr.wf 0 = true ∧ (wired.port 0).answered < 1000 ∧ wired.ports.wf Port.reset = true) ∧
    wired.frameFate { udpFrame with length := 64 } = .accepted ∧ wired.frameFate { udpFrame with length := 9216 } = .accepted
      ∧ wired.frameFate { udpFrame with length := 63 } = .format ∧ wired.frameFate { udpFrame with length := 9217 } = .format
      ∧ wired.frameFate { udpFrame with fcsOk := false } = .format ∧ wired.frameFate { udpFrame with use_ := .pause } = .pause
      ∧ wired.frameFate { udpFrame with use_ := .arpRequest } = .answered ∧ wired.frameFate { udpFrame with dstIp := 0x0A000002 } = .address
      ∧ (let p : Port := { Port.reset with linkUp := true, fecLock := true, ipv4 := 0x0A000001, gw4 := 0x0A0000FE }
         (wired p).frameFate { udpFrame with use_ := .arpReply } = .resolved
          ∧ udpFrame.srcIp.toNat % 2 ^ 32 = ((wired p).port udpFrame.port).gw4.toNat)
      ∧ wired.frameFate { udpFrame with port := 8, length := 63 } = .format ∧
    (let s := wired Port.reset
     (s.page (pgETH 0)).off = false ∧ (s.port 0).linkUp = false ∧ (s.port 0).mode = 1 ∧ modeLanes 1 ≤ 8) := by
  decide +kernel

/-- The first and the last line of the stratum memory of die 0. -/
def scrubbing (pos : Nat) : State :=
  { live with strat := [(0, { Stratum.reset with ready := true, scrubOn := true, scrubPos := pos })] }

theorem wit_scrub :
    (∀ p ∈ [0, stratumLines - 1], let s := scrubbing p
      s.memOk = true ∧ s.strat.wf Stratum.reset = true ∧ s.lpd.wf Lpd.reset = true ∧ s.paused = false ∧ (s.stratum 0).scrubOn = true
        ∧ (s.stratum 0).ready = true ∧ (s.page (pgSTR 0)).ctr.wf 0 = true ∧ s.power.pg = true) ∧
    (let s : State := { live with job := Job.reset, strat := [(0, { Stratum.reset with clearing := true })], lpd := [(1, { Lpd.reset with clearing := true })] }
     s.memOk = true ∧ s.strat.wf Stratum.reset = true ∧ s.lpd.wf Lpd.reset = true ∧ s.job.loading = none ∧ s.job.attests = []
      ∧ s.mrn.admission = [] ∧ s.snap.waits = [] ∧ (∀ die, die < 4 → (s.sampler die).ending = none) ∧ (s.stratum 0).clearing = true ∧ (s.lpdOf 1).clearing = true ∧ s.job.state = .none) ∧
    (∀ p ∈ [0, lpdLines - 1], let s : State := { live with lpd := [(1, { Lpd.reset with scrubOn := true, scrubPos := p })] }
      s.lpd.wf Lpd.reset = true ∧ (s.lpdOf 1).scrubOn = true ∧ (s.lpdOf 0).scrubOn = false ∧ (s.page (pgLPD 1)).ctr.wf 0 = true
        ∧ s.power.pg = true) ∧
    bit (1 : W32).toNat 0 = true ∧ live.job.state ≠ .none ∧ live.memOk = true := by
  refine ⟨?_, by decide, by decide +kernel, by decide, by decide, by decide⟩
  intro p hp
  simp only [List.mem_cons, List.not_mem_nil, or_false] at hp
  rcases hp with rfl | rfl
  all_goals decide +kernel

/-- The third failure in a row, and the first. -/
theorem wit_link_health :
    (∀ n ∈ [0, 2], let s : State := { live with lpd := [(1, { Lpd.reset with chanUp := 1, failRun := if n = 0 then [] else [(31, n)] })] }
      s.power.pg = true ∧ s.paused = false ∧ s.lpd.wf Lpd.reset = true ∧ (s.lpdOf 1).failRun.wf 0 = true
        ∧ (s.lpdOf 1).failRun.get 0 31 = n ∧ s.jobLive = true) ∧ live.mortars.wf Mortar.reset = true := by
  decide

/-! ### Snapshots -/

/-- An open snapshot of pages 1 and 2 with a pool of two pages, and its operation. -/
def snapping (pages : Tbl PageState) (f : Snapshot → Snapshot := id) : State :=
  { live with
    snap := f { Snapshot.reset with poolBase := 0x2000000, poolPages := 2, state := .opened, op := 9, pages := pages, todo := [1, 2] }
    mrn := { live.mrn with ops := [bundleOp .snapshot true .bound] } }
def waiting (page : Nat) : WaitWrite := ⟨[page], 65536 * page, [7], none, false⟩

theorem wit_snapshot :
    (∀ u ∈ [[], [0, 1]], let s := snapping [(1, .guarded)] fun x => { x with waits := [waiting 1], used := u }
      s.paused = false ∧ s.snap.pages.find 1 = some .guarded ∧ (s.snap.waits.any fun w => w.pages.contains 1) = true
        ∧ (u = [] → s.snap.freeSlot = some 0) ∧ (u ≠ [] → s.snap.freeSlot = none) ∧ (∀ w ∈ s.snap.waits, w.forPool = false)) ∧
    (let s := snapping [(1, .copying 1)] fun x => { x with waits := [waiting 1] }
     s.memOk = true ∧ s.clearsPage 1 = false ∧ (∀ die, die < 4 → (s.sampler die).ending = none) ∧ s.snap.pages.find 1 = some (.copying 1) ∧ s.snap.waits = [⟨[1], 65536, [7], none, false⟩]) ∧
    (let s := snapping [(1, .guarded)] fun x => { x with head := [1, 2, 3], used := [0] }
     s.snap.state = .opened ∧ s.snap.reading = none ∧ s.snap.copying = false ∧ s.memOk = true ∧ s.headSlots = 0 :: [] ∧ s.snap.head ≠ [] ∧ s.findOp s.snap.op = some (bundleOp .snapshot true .bound)
      ∧ s.snapRoom = true ∧ s.uncorr (s.snap.poolAddr 0) 65536 = false) ∧
    (let s : State := { snapping [(1, .guarded)] fun x => { x with head := [1, 2, 3], used := [0] } with bad := [0x2000000 / 64] }
     s.snap.state = .opened ∧ s.snap.reading = none ∧ s.snap.copying = false ∧ s.memOk = true ∧ s.headSlots = 0 :: [] ∧ s.snap.head ≠ []
      ∧ s.findOp s.snap.op = some (bundleOp .snapshot true .bound) ∧ s.snapRoom = true ∧ s.uncorr (s.snap.poolAddr 0) 65536 = true) ∧
    (let s := snapping [(1, .guarded)] fun x => { x with head := [1, 2, 3] }
     s.snap.state = .opened ∧ s.snap.reading = none ∧ s.snap.copying = false ∧ s.memOk = true ∧ s.headSlots = [] ∧ s.snap.freeSlot = some 0
      ∧ s.findOp s.snap.op = some (bundleOp .snapshot true .bound) ∧ s.snapRoom = true) ∧
    (let s := snapping [(1, .guarded)]
     s.snap.head = [] ∧ s.snap.todo = 1 :: [2] ∧ s.snap.pages.find 1 = some .guarded) ∧
    (∀ l ∈ [[2], []], let s := snapping [(1, .streaming)] fun x => { x with reading := some 1, todo := l }
      (∀ die, die < 4 → (s.sampler die).ending = none) ∧ s.snap.freeSlot = some 0 ∧ s.snap.reading = some 1 ∧ s.snap.pages.find 1 = some .streaming ∧ s.snapRoom = true
        ∧ s.findOp s.snap.op = some (bundleOp .snapshot true .bound) ∧ s.snap.state = .opened ∧ s.snap.head = [] ∧ s.snap.todo = l) ∧
    (let s := snapping [] fun x => { x with waits := [{ waiting 1 with forPool := true }] }
     (s.snap.waits.any fun w => w.forPool) = true ∧ s.snap.state = .opened ∧ ∀ page, s.clearsPage page = false) := by
  refine ⟨by decide +kernel, by decide +kernel, by decide +kernel, by decide +kernel, by decide +kernel, by decide +kernel, by decide +kernel,
    by decide +kernel, by decide +kernel, live_clearsPage rfl rfl⟩

/-! ### Power, reset and boot -/

/-- A firmware image of one byte, signed for the neutral key, and fuses that name that key. -/
def firmware : Bytes :=
  leBytes 4 0x5451464D ++ leBytes 1 1 ++ zeros 7 ++ leBytes 4 1 ++ neutralKey ++ zeros 7 ++ neutralSig ++ zeros 318 ++ [0]
def fuses : Fuses := { live.trust.fuses with vendorDigests := [keyDigest neutralKey] }

theorem firmware_ok (f : Fuses) (h : f.vendorDigests = [keyDigest neutralKey]) (hr : f.revoked = 0) (hs : f.svnMin = 0) :
    imageStep f firmware = 0 := by
  have h1 : (leAt firmware 0 4 != 0x5451464D || leAt firmware 4 1 != 1 || leAt firmware 0x0C 4 == 0 || decide (33553920 < leAt firmware 0x0C 4)
      || firmware.length != 512 + leAt firmware 0x0C 4 || imageRevoke firmware / 16 != 0 || !(allZero ((firmware.drop 0x49).take 7))
      || !(allZero ((firmware.drop 0xC2).take 318))) = false := by decide +kernel
  have h2 : leAt firmware 5 1 = 0 := by decide +kernel
  have h3 : (firmware.drop 0x10).take 57 = neutralKey := by decide +kernel
  have h4 : (firmware.drop 0x50).take 114 = neutralSig := by decide +kernel
  have h5 : bit 0 0 = false := by decide
  unfold imageStep
  simp only [h1, h2, h3, h4, h, hr, hs, h5, edVerify_neutral, List.getD_cons_zero, bne_self_eq_false]
  simp

/-- The module without power, with an image that verifies or one that does not; and at a reset that left it powered. -/
def unpowered (fw : Bytes) : State :=
  { State.reset with trust := { State.reset.trust with fuses := fuses, mirrorA := some fuses, mirrorB := none, fw := fw } }
def powering (inlet : Int) (fail : Option Nat) : PowerUp := ⟨5, 40000, inlet, true, fail, 0xFFFFFFFF, 0xFFFFFFFF, none, true⟩

theorem wit_power_on :
    (∀ fw, (unpowered fw).power.pwrEn = false ∧ (unpowered fw).power.pg = false ∧ (unpowered fw).sag.image = none
      ∧ (unpowered fw).trained 0xFFFFFFFF 0xFFFFFFFF = true
      ∧ (unpowered fw).trained 0xFFFFFFFF 0xFFFFFFFE = false) ∧
    (unpowered firmware).trust.repair.bootStep = 0 ∧ (unpowered []).trust.repair.bootStep ≠ 0 ∧
    (450 < (powering 451 none).inlet ∧ (powering 450 none).inlet ≤ 450 ∧ (powering 450 (some 3)).failStep.isSome = true
      ∧ (powering 450 none).failStep = none ∧ (powering 450 none).tamperHigh = true ∧ 40000 ≤ (powering 450 none).vin) ∧
    (∀ fw, let s : State := { unpowered fw with power := { PowerSt.reset with pwrEn := true } }
      s.power.pwrEn = true ∧ s.power.pg = false ∧ s.power.failed = false ∧ s.trust.recovery = false ∧ s.power.tamperLvl = true) := by
  refine ⟨fun _ => ⟨rfl, rfl, rfl, rfl, rfl⟩, ?_, ?_, by decide, fun _ => ⟨rfl, rfl, rfl, rfl, rfl⟩⟩
  · have h : (unpowered firmware).trust.repair.bootStep = imageStep fuses firmware := by
      simp [unpowered, Trust.repair, Trust.bootStep, fuses]
    rw [h]
    exact firmware_ok _ rfl rfl rfl
  · have h : (unpowered []).trust.repair.bootStep = imageStep fuses [] := by
      simp [unpowered, Trust.repair, Trust.bootStep, fuses]
    rw [h]
    simp [imageStep, leAt, leNat]

theorem wit_power :
    (let s : State := { live with power := { live.power with switchOpen := false } }
     s.power.pwrEn = true ∧ s.power.switchOpen = false ∧ s.power.pg = true ∧ s.power.openByVin = false) ∧
    (let s : State := { live with power := { live.power with switchOpen := true, openByVin := true } }
     s.power.pwrEn = true ∧ s.power.openByVin = true) ∧
    (let s : State := { live with power := { live.power with pg := false } }
     s.power.pwrEn = true ∧ s.power.pg = false) ∧
    (let s : State := { live with trust := { live.trust with imageTimer := true } }
     s.trust.imageTimer = true) := by decide

theorem wit_governor :
    live.power.pg = true ∧ (4 : W32).toNat % 8 = 4 ∧ (3 : W32).toNat % 8 = 3 ∧ live.power.lease = 0 ∧ (live.page pgPWR).errValid = false
      ∧ (∀ b ∈ [true, false], let s : State := { live with power := { live.power with changing := b, lease := 5 } }
          s.power.pg = true ∧ s.power.lease ≠ 0 ∧ s.power.changing = b ∧ s.power.active ≠ 3 ∧ s.power.mode ≠ 3
            ∧ s.power.pendingMode ≠ some 3) ∧ (0xFFFF : W32).toNat % 65536 ≠ 0 ∧ (0 : W32).toNat % 65536 = 0 ∧
    (live.pages.wf PageHdr.reset = true ∧ (live.page pgPWR).ctr.wf 0 = true ∧ (live.page pgPWR).last.wf 0 = true ∧ live.paused = false) ∧
    (let m : Sensors := ⟨54000, 0, 5000, 551, 0⟩
     let s : State := { live with power := { live.power with sinceStep := 1 } }
     (s.power.measure m).excess ≠ 0 ∧ s.power.step = 0 ∧ 1 ≤ s.power.sinceStep) ∧
    (live.power.measure ⟨54000, 0, 0, 0, 0⟩).excess = 0 ∧
    (let s : State := { live with sag := { live.sag with state := .saving } }
     s.paused = true ∧ s.power.pg = true) ∧
    (let s : State := { live with power := { live.power with step := 8, outlet := 621 } }
     s.power.pg = true ∧ s.power.step = 8 ∧ 620 < s.power.outlet ∧ s.jobLive = true) := by
  decide +kernel

/-! ### The sag sequence -/

def sagged (x : Sag) : State := { live with sag := x }
def stagedImage : SagImage :=
  { boot := 1, job := 1, tpos := 0, jpos := 0, len := 0, valid := false, superseded := false, sessions := [], ops := [], origins := [],
    cache := [], wear := [], bytes := [], values := live.sagValues }

theorem wit_sag :
    (let s := sagged { Sag.reset with state := .armed }
     s.power.pg = true ∧ s.sag.state = .armed ∧ s.sag.kept = false ∧ s.capTesting = false) ∧
    (let s : State := { sagged { Sag.reset with state := .armed } with maint := { live.maint with running := [⟨1, 0, true⟩] } }
     s.power.pg = true ∧ s.sag.state = .armed ∧ s.capTesting = true) ∧
    (let s := sagged { Sag.reset with state := .erasing }
     s.power.pg = true ∧ s.sag.state = .erasing ∧ s.maint.capAgain = false ∧ s.capTesting = false) ∧
    (let s := sagged { Sag.reset with state := .pausing, stopped := true }
     s.sag.state = .pausing ∧ s.sag.stopped = true ∧ s.sag.skipImage = false ∧ s.memOk = true) ∧
    (let s := sagged { Sag.reset with state := .saving, staged := some stagedImage }
     s.sag.state = .saving ∧ s.sag.staged = some stagedImage ∧ s.sag.recovered = false ∧ s.trust.tamperHeld = 0 ∧ s.power.pg = true
      ∧ s.power.pwrEn = true) ∧
    (let s : State := { sagged { Sag.reset with state := .hold } with sk := [(0, { Skein.reset with power := .retained })] }
     s.sag.state = .hold ∧ s.allReady = false ∧ s.memOk = true ∧ s.sag.timedOut = false ∧ s.jobLive = true ∧ s.power.pg = true
      ∧ s.power.pwrEn = true) ∧
    (let s : State := { live with power := { live.power with pwrEn := false } }
     s.power.pwrEn = false) ∧
    (let s : State := { live with maint := { live.maint with running := [⟨1, 0, true⟩] } }
     (s.maint.running.any fun q => q.act == 1) = true ∧ s.maint.waiting = []) := by
  decide +kernel

/-! ### Trust -/

/-- A module without a job in a life cycle, with a value in the stage. -/
def fusing (lc v : Nat) (f : Fuses → Fuses := id) : State :=
  { live with
    job := Job.reset
    trust := { live.trust with fuses := f { live.trust.fuses with lc := lc, variant := 1 }, stage := if v = 0 then [] else [(0, BitVec.ofNat 32 v)],
                               running := some (zeros 6 ++ [64, 0]) } }

/-- The first role change and the last that there is room for; SVN_MIN 64; a mask of two keys; the last owner key and address block. -/
theorem wit_fuses :
    (let s : State := { fusing 1 1 with trust := { (fusing 1 1).trust with tamper := 1 } }
     s.power.pg = true ∧ s.trust.tamper ≠ 0) ∧
    (live.trust.tamper = 0 ∧ live.job.state ≠ .none) ∧
    (∀ n ∈ [0, 14], let s := fusing 1 1 fun f => { f with roleN := n, svnMin := 0, ownerN := 7, addrN := 3, lcN := 0, revoked := 0, roleBase := decide (n % 2 = 1) }
      let f := s.trust.fuses
      s.trust.tamper = 0 ∧ s.job.state = .none ∧ s.paused = false ∧ s.ownerState = true ∧ s.isX = true ∧ s.stageNat 8 = 1 ∧ b2n f.manager ≠ 1
        ∧ f.roleN < 15 ∧ f.svnMin < 1 ∧ 1 ≤ imageSvn (s.trust.running.getD []) ∧ imageSvn (s.trust.running.getD []) = 64
        ∧ 1 &&& (15 - imageRevoke (s.trust.running.getD []) % 16) = 1 ∧ f.ownerN < 8 ∧ f.addrN < 4) ∧
    (let s : State := { fusing 2 1 with trust := { (fusing 2 1).trust with running := some (zeros 7 ++ [1]) } }
     let f := s.trust.fuses
     s.ownerState = true ∧ s.stageNat 8 &&& (15 - imageRevoke (s.trust.running.getD []) % 16) = 0 ∧ f.revoked ||| 1 ≠ 15
      ∧ f.revoked ||| 1 ≠ f.revoked ∧ s.job.state = .none) ∧
    ((fusing 0 1).ownerState = false ∧ (fusing 0 1).stageNat 8 = (fusing 0 1).trust.fuses.lc + 1 ∧ (fusing 3 4).stageNat 8 = 4
      ∧ (fusing 0 2).stageNat 8 ≠ (fusing 0 2).trust.fuses.lc + 1) ∧
    (let e : LedgerEntry := ⟨1, 1, false, 0, 0, 0, 0, 0⟩
     let s : State := { live with trust := { live.trust with ledger := [e] } }
     s.trust.ledger.find? (fun e => e.seq == (1 : W32).toNat) = some e) ∧
    (fusing 1 1).capTesting = false ∧
    (let s : State := { fusing 1 1 with maint := { live.maint with running := [⟨1, 0, true⟩] } }
     s.power.pg = true ∧ s.trust.tamper = 0 ∧ s.job.state = .none ∧ s.paused = false ∧ s.capTesting = true) := by
  refine ⟨by decide, by decide, ?_, by decide +kernel, by decide +kernel, by decide, by decide, by decide⟩
  intro n hn
  simp only [List.mem_cons, List.not_mem_nil, or_false] at hn
  rcases hn with rfl | rfl
  all_goals decide +kernel

theorem wit_tamper :
    live.power.pg = true ∧ live.sag.state ≠ .pausing ∧ live.sag.state ≠ .saving ∧ live.memOk = true ∧ live.jobLive = true ∧
    (let s := sagged { Sag.reset with state := .saving }
     s.power.pg = true ∧ s.sag.state = .saving) ∧
    (let s : State := { live with power := { live.power with pg := false } }
     s.power.pg = false ∧ s.power.pwrEn = true ∧ s.sag.state ≠ .pausing ∧ s.memOk = true ∧ s.jobLive = true) := by decide

/-! ### Register pages, windows and the trace unit -/

/-- A page whose ENABLE can be written, one whose ENABLE is fixed, and the pages that a soft reset does not touch. -/
theorem wit_pages :
    (∀ p ∈ [pgPLY 0, pgETH 0, pgSTR 0], live.power.pg = true ∧ live.pagePresent p = true ∧ live.pages.wf PageHdr.reset = true
      ∧ enableFixed (pageBlock p).1 = false ∧ (pageBlock p).1 ≠ 0x01 ∧ (pageBlock p).1 ≠ 0x0B ∧ (pageBlock p).1 ≠ 0x0C
      ∧ (live.page p).off = false) ∧
    (enableFixed (pageBlock 0).1 = true ∧ (pageBlock 0).1 = 0x01 ∧ live.pagePresent 0 = true) ∧
    live.job.state ≠ .none ∧ Job.reset.state = .none ∧ live.trace.xtEn = false ∧ bit (eventBits (pageBlock (pgPLY 0)).1) 0 = true := by
  decide +kernel

theorem wit_windows :
    (let k : Skein := { Skein.reset with power := .ready, trackers := [(0, { tracker with bind := { tracker.bind with rsMode := 1, chCount := 1 } })] }
     let s : State := { live with sk := [(0, k)] }
     s.power.pg = true ∧ s.sk.wf Skein.reset = true ∧ s.engines.wf QueueEngine.reset = true ∧ s.knotWin.wf KnotBlock.reset = true
      ∧ s.evt.entries.wf EvEntry.reset = true ∧ s.evt.window.wf 0 = true ∧ s.skeinPresent 0 = true ∧ s.skeinPresent 71 = true
      ∧ (s.skein 0).channels.wf Channel.reset = true ∧ (s.skein 0).hostChannel (s.skein 0).chanSel = true
      ∧ (s.skein 71).hostChannel (s.skein 71).chanSel = false ∧ s.diePresent 0 = true ∧ s.diePresent 3 = true
      ∧ 1 < s.mrn.sessSel.length ∧ 1 < s.mrn.sessView.length) ∧
    (∀ a ∈ [actSAMPLE, actCOMMIT],
      let word (k : Nat) : W32 := BitVec.ofNat 32 (leAt (entryAt 5 a).bytes (4 * k) 4)
      let s : State := { live with evt := { live.evt with entries := [(0, entryAt 5 actCOMMIT)], window := Tbl.ofRun 0 0 ((List.range 7).map word) } }
      let u : State := { s with evt := { s.evt with window := s.evt.window.set 0 7 (word 7) } }
      let e := u.evt.windowEntry
      s.evt.entries.wf EvEntry.reset = true ∧ s.evt.window.wf 0 = true ∧ e.valid = true ∧ e.action = a ∧
      ((!e.valid || mayWrite .host false e.action) && u.evtOk ((u.putEntry s.evt.sel e).evt.entries.map (·.2))) = decide (a = actSAMPLE)) ∧
    (bit (0x80000000 : W32).toNat 31 = true ∧ (250 : W32).toNat % 2 ^ 20 = 250 ∧ (1000000 : W32).toNat % 2 ^ 20 = 1000000
      ∧ (live.page pgTRD).locked = false) := by
  refine ⟨by decide +kernel, ?_, by decide +kernel⟩
  intro a ha
  simp only [List.mem_cons, List.not_mem_nil, or_false] at ha
  rcases ha with rfl | rfl
  all_goals decide +kernel

theorem wit_trace :
    live.power.pg = true ∧ live.trace.phase = .armed ∧
    (let o := bundleOp .snapshot true .bound
     let s : State := { live with mrn := { live.mrn with ops := [o] } }
     s.findOp 9 = some o ∧ o.live = true ∧ s.paused = false ∧ bit s.trace.trigMask 6 = true) ∧
    (let s : State := { live with trace := { live.trace with phase := .post }, rings := [(pgPWR, { Ring.reset with post := 100 })] }
     s.trace.phase = .post ∧ s.trace.phase ≠ .armed ∧ pgPWR ≠ xtPage ∧ s.hasRing pgPWR = true
      ∧ s.ringStopped (ringDepth pgPWR) (s.ring pgPWR) = true ∧ s.paused = false ∧ s.trace.held = none) ∧
    (let s : State := { live with trace := { live.trace with held := some (1, 64) } }
     s.trace.held.isSome = true) := by
  decide +kernel

/-! ### Maintenance and wear -/

/-- A request that merges, one that waits, one that starts, and one that BYPASS_TEST makes with a job loaded. -/
theorem wit_maintenance :
    (let run (l : List MntReq) (w : List MntReq) : State := { live with maint := { live.maint with running := l, waiting := w } }
     ((((run [⟨3, 0, true⟩] []).maint.running ++ (run [⟨3, 0, true⟩] []).maint.waiting).any fun q => q.act == 3) = true) ∧
     live.job.state ≠ .none ∧ live.maint.running = [] ∧ live.maint.waiting = [] ∧ live.mntConflict ⟨3, 0, true⟩ = false
      ∧ live.mntWindow 3 = true ∧ live.mntWindow 1 = false
      ∧ ((run [] [⟨2, 3, true⟩]).maint.waiting.find? (fun q => q.act == 2) = some ⟨2, 3, true⟩)
      ∧ (run [⟨5, 0, true⟩] []).maint.running = [⟨5, 0, true⟩]) ∧
    (let s : State := { live with job := Job.reset }
     s.job.state = .none ∧ s.mntWindow 2 = true ∧ s.mntConflict ⟨2, 8, true⟩ = false ∧ s.ports.wf Port.reset = true
      ∧ (s.stratum 0).ready = true ∧ (s.stratum 0).scrubOn = false) ∧
    (let q : MntReq := ⟨1, 0, true⟩
     let s : State := { live with job := Job.reset, maint := { live.maint with waiting := [q] } }
     s.maint.waiting.find? (fun q => q.act == 1) = some q ∧ s.mntWindow 1 = true ∧ s.mntConflict q = true) ∧
    (∀ e ∈ [0, 5], let s : State := { live with maint := { live.maint with window := some 0, windowEnd := e } }
     s.maint.window = some 0 ∧ decide (s.maint.windowEnd ≤ s.trd.tpos) = decide (e = 0)) := by
  decide +kernel

/-- A period that requests and one of zero that does not; the turn of the last port. -/
theorem wit_maint_periods :
    (∀ h ∈ [0, 24], let s : State := { live with job := Job.reset, maint := { live.maint with capH := h, marginH := h, nextPort := 8 } }
      (maintAsks s (.mntPeriodicRequest 1) = if h = 0 then none else some (⟨1, 0, false⟩, s))
        ∧ (maintAsks s (.mntPeriodicRequest 2)).isSome = decide (h ≠ 0) ∧ s.turnPort = 8) ∧
    maintAsks live (.mntReqMarginScan 8) = some (⟨2, 8, true⟩, live) ∧ live.strat.wf Stratum.reset = true ∧ live.lpd.wf Lpd.reset = true ∧
    (let s : State := { live with maint := { live.maint with waiting := [⟨1, 0, true⟩] } }
     s.maint.waiting.find? (fun q => q.act == 1) = some ⟨1, 0, true⟩ ∧ s.mntWindow 1 = false) := by
  decide +kernel

/-- The end of each activity; ends that are held; and a COMPACT that waits for CAP_TEST. -/
theorem wit_maint_ends :
    (let run (q : MntReq) (w : List MntReq) : State := { live with maint := { live.maint with running := [q], waiting := w } }
     (∀ q ∈ [⟨0, 0, false⟩, ⟨1, 0, true⟩, ⟨2, 7, true⟩, ⟨2, 8, true⟩, ⟨3, 0, true⟩, ⟨4, 0, false⟩, ⟨5, 0, false⟩, (⟨6, 0, true⟩ : MntReq)],
        (run q []).maint.running.find? (fun r => r.act == q.act) = some q ∧ (run q []).maint.waiting = []) ∧
     live.snap.state ≠ .opened ∧ (sagged { Sag.reset with state := .armed }).sag.state = .armed ∧ (∀ kv ∈ live.strat, kv.2.scrubOn = false) ∧ (∀ kv ∈ live.lpd, kv.2.scrubOn = false) ∧
     live.ports.wf Port.reset = true ∧ (run ⟨1, 0, true⟩ [⟨3, 0, false⟩]).maint.waiting = [⟨3, 0, false⟩]) ∧
    (snapping []).snap.state = .opened ∧ (sagged { Sag.reset with state := .erasing }).sag.state ≠ .armed
      ∧ (∃ kv ∈ (scrubbing 0).strat, kv.2.scrubOn = true) := by
  decide +kernel

/-- An indicator over its limit and one that is not, the first sample of each and the fifteenth. -/
theorem wit_wear_day :
    (∀ v ∈ [3, 300], let s : State := { live with wear := { live.wear with latest := [(16, v)] } }
      s.power.pg = true ∧ s.wear.eol.wf 0xFFFFFFFE = true ∧ s.wear.latest.find 16 = some v ∧ bit s.wear.crossed 16 = false
        ∧ wearOver 16 v = decide (v = 3)) ∧
    (let s : State := { live with wear := { live.wear with latest := [(16, 3)], history := List.replicate 14 ⟨16, 3⟩ } }
     (s.samplesOf 16).length = 14) ∧ (live.wear.latest.put 6 0).find 16 = none ∧ (Tbl.put [(16, (3 : Int))] 6 (Config.keepErase 0)).find 16 = some 3 :=
  ⟨by decide +kernel, by decide +kernel, rfl, rfl⟩

/-! ### The rest -/

theorem wit_plane_order :
    let ts : List Term := [⟨0, 0, ⟨1, 0⟩⟩, ⟨0, 1, ⟨2, 0⟩⟩]
    open0.a0.acc.wf 0 = true ∧ ts.Perm ts.reverse := by
  exact ⟨by decide, (List.reverse_perm _).symm⟩

theorem wit_load_refused :
    let s : State := { empty with job := live.job }
    let p := command 0x0104 0 (leBytes 8 9)
    s.job.bundles = [] ∧ s.job.state ≠ .none ∧ firstCopy { s with job := { s.job with bundles := [⟨p.cmd, bundle⟩] } } p 0x0104 0
      ∧ p.payload.length = 16 ∧ s.findOp (BitVec.ofNat 64 (leAt p.payload 8 8)) = some (bundleOp .jobBundle false .done)
      ∧ s.trust.fuses.lc = 2 ∧ s.trust.tamper = 0 :=
  ⟨rfl, by decide, first_of (command_seq rfl (by decide +kernel) (by decide +kernel)) (by decide +kernel), by decide, by decide +kernel, rfl, rfl⟩

theorem wit_absent :
    (let s : State := { live with trust := { live.trust with fuses := { live.trust.fuses with variant := 4 } } }
     s.pagePresent (pgSTR 1) = false ∧ s.pagePresent (pgSTR 0) = true) ∧ live.pagePresent 4794 = false ∧ live.pagePresent 4793 = true := by
  decide +kernel

theorem wit_step :
    State.reset.pending = [] ∧ State.reset.stamps.wf 0 = true ∧ State.reset.memOk = true ∧ live.stamps.wf 0 = true
      ∧ (live.die 0).awake = true ∧ (live.die 3).awake = false := by decide

/-- An idle module with a firmware slot under way, alone and beside the capacitor test. -/
theorem wit_step_slot :
    let s : State := { State.reset with trust := { State.reset.trust with slotWrite := some (9, [1]) } }
    s.pending = [] ∧ s.stamps.wf 0 = true ∧ s.trust.slotWrite = some (9, [1]) ∧ s.capTesting = false ∧ State.reset.trust.slotWrite = none ∧
    (let u : State := { s with maint := { s.maint with running := [⟨1, 0, true⟩] } }
     u.capTesting = true ∧ u.memOk = true) := by decide

/-! ### Ill-formed commands are refused, and the ends of each range are not -/

/-- A spindle number of 4,608, one for each command that takes one. -/
def spindleRows (n : Nat) : List Instr :=
  [.scalarAlu n, .aluImmediate n, .li n, .ld n, .st n, .ldD n false, .stD n false, .atomD n false, .atom n, .conditionalBranch n, .jal n, .jr n, .movs n,
   .endStation n, .vectorF32 n, .vrsumF32 n, .vectorInteger n, .vld n, .vst n, .maskOperations n, .mpop n, .vbcast n, .vext n, .vperm n,
   .vsel n, .cvt n, .curve n, .curveD n, .curveGumbel n, .fmmLdw n, .fmm n, .bmmLdb n, .bmm n, .arrayPassRetire n, .bmmDefer n,
   .bmmDone n, .bmmYieldQ n, .bmmYieldK n, .bmmFlush n, .escTerm n, .accOpen n, .accRnd n, .accSave n, .accAddx n, .accClear n]
  ++ [.pull n, .pullH n, .pullRel n, .push n, .pushClose n, .pullA ⟨n, false⟩, .pushA ⟨n, false⟩, .transferComplete n false, .knotAdd n, .knotSet n, .knotWge n,
   .knotWeq n, .knotRd n, .knotTimeout n, .queueTimeout n, .queueFullTimeout n, .rngU n, .rngN n, .rngMask n, .rngSample n, .evtMark n,
   .evtTrig n, .bankGive n, .bankTake n, .bankShare n, .trackerWaitTimeout n, .spillWait n, .spillWaitTimeout n]

theorem test_wf_spindles : (spindleRows 4607).all Instr.wf = true ∧ (spindleRows 4608).all (fun c => !c.wf) = true := by decide

/-- Units by number: the last one of each kind, and the one after it. -/
def unitRows (d : Nat) : List Instr :=
  [.knotWake (3 + d), .maskComplete (71 + d), .sampleRequestServe (3 + d), .stationStart (65535 + d) 0, .stationStart 0 (4607 + d),
   .skeinReady (71 + d), .powerDomainRaise (143 + d), .prologueTrigger (65535 + d) 0, .prologueTrigger 0 (71 + d), .stationWatchdog (65535 + d),
   .trackerReport (71 + d), .trackerStep (71 + d) 0, .trackerStep 0 (255 + d), .spillReservation (71 + d), .portDown (7 + d),
   .portRejoin (7 + d), .collectiveTrigger (65535 + d), .collectiveTimeout (65535 + d), .stratumScrub (3 + d) .clean, .lpdScrub (1 + d) .clean,
   .lpdRetrain (1 + d) 0 true, .lpdRetrain 0 (31 + d) true, .mortarLinkDown (7 + d), .stratumClearDone (3 + d), .lpdClearDone (1 + d)]
  ++ [.tSusExpiry (8191 + d), .idleProbe (8191 + d), .tDeadExpiry (8191 + d), .tOpenExpiry (8191 + d), .helloRepeat (8191 + d),
   .resyncRepeat (8191 + d), .closeRepeat (8191 + d), .ackDelayExpiry (8191 + d), .retransmissionTimeout (8191 + d),
   .snapProtectedWrite (dramPages - 1 + d), .snapCopyDone (dramPages - 1 + d), .fuseRole (16777215 + d) 0, .fuseSvnMin (16777215 + d) 0,
   .fuseRevoke (16777215 + d) 0, .fuseOwnerInstall (16777215 + d) 0, .fuseAddressBlock (16777215 + d) 0, .fuseLifeCycle (16777215 + d) 0,
   .tamper (3 + d), .pageLock (4793 + d), .sreset (4793 + d), .enableWrite (4793 + d) true, .errValidClear (4793 + d)]
  ++ [.evtPendClear (4793 + d) 0, .evtForce (4793 + d) 0, .counterSnap (4793 + d), .plyTrkSelWrite (71 + d) 0, .queSelWrite (3 + d) 0,
   .kntSelWrite (3 + d) 0, .mrnSessSelWrite (1 + d) 0, .plyChanFactorWrite (71 + d) 0, .lpdCtlClear (1 + d) 0, .strFailValidClear (3 + d),
   .ringFreeze (4793 + d), .mntReqMarginScan (8 + d), .mntPeriodicRequest (7 + d), .maintActivityEnd (7 + d) ⟨0, 0, []⟩,
   .mntDeferTimeout (7 + d), .ethLinkUp (7 + d) 0 0, .ethLinkUp 0 (8 + d) 0]

theorem test_wf_units : (unitRows 0).all Instr.wf = true ∧ (unitRows 1).all (fun c => !c.wf) = true := by decide +kernel

/-- A packet whose every field fits, and one for each field that does not. -/
def somePacket : Packet := plainPacket (sess 1) 1 0 [1, 2, 3]
theorem test_wf_packets :
    (Instr.identify somePacket).wf = true ∧
    ([{ somePacket with port := 9 }, { somePacket with srcPort := 65536 }, { somePacket with version := 256 },
      { somePacket with session := 2 ^ 32 }, { somePacket with epoch := 2 ^ 32 }, { somePacket with seq := 2 ^ 48 },
      { somePacket with ack := 2 ^ 48 }, { somePacket with len := 65536 }, { somePacket with ceCount := 65536 },
      { somePacket with tag := [0] }] : List Packet).all (fun p => !(Instr.identify p).wf && !(Instr.hello p).wf && !(Instr.count p).wf) = true := by
  decide +kernel

/-- Frames: a good one for each operation, the wrong operation, and fields that do not fit. -/
theorem test_wf_frames :
    ([.nop (ringFrame 0 0), .vote (ringFrame 1 0), .tally (ringFrame 2 0), .commit (ringFrame 3 0), .defer (ringFrame 4 0),
      .stop (ringFrame 5 0), .bypass (ringFrame 6 0), .unbypass (ringFrame 7 0), .ethFrameRx udpFrame] : List Instr).all Instr.wf = true ∧
    ([.nop (ringFrame 1 0), .vote (ringFrame 2 0), .tally (ringFrame 3 0), .commit (ringFrame 4 0), .defer (ringFrame 5 0),
      .stop (ringFrame 6 0), .bypass (ringFrame 7 0), .unbypass (ringFrame 8 0), .nop { ringFrame 0 0 with arg := 2 ^ 40 },
      .ethFrameRx { udpFrame with port := 9 }, .ethFrameRx { udpFrame with dst := 2 ^ 48 },
      .ethFrameRx { udpFrame with dstPort := 65536 }] : List Instr).all (fun c => !c.wf) = true := by
  decide +kernel

/-! ### Words written out from the encoding tables (R286–R311) -/

/-- One word of each family: OP in bits 63:56, FN in 55:48, D in 47:43, A in 42:38, B in 37:33, and the fields of each form. -/
theorem test_words_scalar :
    decodeSp 0x0100184400000000 = some (.alu .add 3 1 2) ∧ decodeSp 0x03181234567890AB = some (.li 3 0x1234567890AB)
      ∧ decodeSp 0x0800004400000010 = some (.branch .eq 1 2 16) ∧ decodeSp 0x0C00000000000000 = some .endProg := by decide +kernel

theorem test_words_vector :
    decodeSp 0x200320443D000000 = some (.vf .fma 4 1 2 3 ⟨true, 5⟩) ∧ decodeSp 0x4400184400000000 = some (.knot .add 3 1 2) := by decide +kernel

/-- The two words that the spec works out after R303. -/
theorem test_words_arrays :
    decodeSp 0x3104024006000000 = some (.fmm .n8 9 .a1 true false)
      ∧ (match decodeSp 0x3D042B1A00000000 with
         | some (.accRnd f d a b pl half fin r) => f == .n8 && d == 5 && a == 12 && b == 13 && pl == some .a0 && !half && !fin && r.mode == .rne
         | _ => false) = true := by decide +kernel

theorem test_words_refused :
    decodeSp 0x0C00000000000001 = none ∧ decodeSp 0x0000000000000000 = none ∧ decodeSp 0x28042044002C0000 = none
      ∧ decodeSp 0xFF00000000000000 = none := by decide +kernel

/-! ### Worked examples of the spec -/

/-- The check value of CRC-32C, and of CRC-16 with the treadle's polynomial is left to the ring's own frames. -/
theorem test_crc32c : crc32c [0x31, 0x32, 0x33, 0x34, 0x35, 0x36, 0x37, 0x38, 0x39] = 0xE3069283 := by decide +kernel

/-- Where the element at row 5, column 40 lies, normal and turned (the example before R72). -/
theorem test_element_place : payPos 0 360 = 360 ∧ payPos 1 360 = 2565 ∧ elemIdx 1 2565 = 360 := by decide

/-- The descriptor of the example after R85: its first 24 bytes, and its fields read back. -/
theorem test_descriptor :
    let d := descBytes 1 0 ⟨0x00012C05, 17, 130, 0x03A7, true, []⟩ 1 2048 0
    d.take 24 = [0x01, 0x02, 0x01, 0x01, 0x05, 0x2c, 0x01, 0x00, 0x11, 0x00, 0x00, 0x82, 0x00, 0x00, 0xa7, 0x03,
                 0x00, 0x08, 0x00, 0x00, 0x00, 0x00, 0x00, 0x00]
      ∧ (Desc.parse d).tensor = 0x00012C05 ∧ (Desc.parse d).row = 17 ∧ (Desc.parse d).col = 130 ∧ (Desc.parse d).gen = 0x03A7 := by
  decide +kernel

/-- The counter block of the example before R250. -/
theorem test_counter_block :
    elementPos 9216 17 130 360 = 10081448 ∧ counterBlock 10081448 0x00012C05 1 0x03A7 = ⟨0x0099D4A8, 0, 0x00012C05, 0x010003A7⟩ := by
  decide +kernel

/-- MOD_PART, MOD_CAP_CORE, MOD_CAP_MEM and MOD_CAP_UNITS of a TQD-4608-G (the example of the scope chapter). -/
theorem test_part_words :
    let s : State := { State.reset with trust := { State.reset.trust with fuses := { State.reset.trust.fuses with variant := 3 } } }
    s.readReg 0 0x40 = 0x03430100 ∧ s.readReg 0 0x44 = 0x1200003F ∧ s.readReg 0 0x48 = 0x400000FF ∧ s.readReg 0 0x4C = 0x000F0F00 := by
  decide +kernel

/-- The state after a command. -/
def after (c : Instr) (s : State) : State := match exec c s with | .next t => t | _ => s

/-- 7 + 5, with the PC past the word; and a branch of 16 words, taken or not. -/
theorem test_add : ((after (.scalarAlu 0) (prog (.alu .add 3 1 2) (with12 7 5))).spindle 0).s 3 = 12
    ∧ ((after (.scalarAlu 0) (prog (.alu .add 3 1 2) (with12 7 5))).spindle 0).pc = 8 := by decide +kernel

theorem test_branch : ((after (.conditionalBranch 0) (prog (.branch .ltu 1 2 16) (with12 5 7))).spindle 0).pc = 128
    ∧ ((after (.conditionalBranch 0) (prog (.branch .ltu 1 2 16) (with12 7 5))).spindle 0).pc = 8 := by decide +kernel

/-- A row does not act on another row's instruction. -/
theorem test_other_row : after (.li 0) (prog (.alu .add 3 1 2)) = prog (.alu .add 3 1 2) := by decide +kernel

/-- The front of the queue runs, and the rest waits. -/
theorem test_queue :
    (match step { live with pending := [.knotWake 0, .boot] } with | .next t => t.pending == [.boot] | _ => false) = true := by decide +kernel

end Sys2Proof.Tests
end

section
/-!
The order of exact terms (R36, R109): a term's effect on a plane, written as one independent update per field, and that two such updates
can be exchanged.
-/
namespace Sys2Proof.Machine

/-! ### Canonical tables are equal when they read the same -/

theorem Tbl.get_cons_self {α : Type} {d : α} (k : Nat) (v : α) (t : Tbl α) : Tbl.get ((k, v) :: t) d k = v := by simp [Tbl.get]

theorem Tbl.get_cons_of_gt {α : Type} {d : α} {j k : Nat} (v : α) (t : Tbl α) (h : j < k) :
    Tbl.get ((j, v) :: t) d k = t.get d k := by
  simp [Tbl.get, Nat.ne_of_lt h, Nat.lt_asymm h]

/-- Two tables of canonical form that read the same at every key are the same table. -/
theorem Tbl.eq_of_get_eq {α : Type} [DecidableEq α] {d : α} {t u : Tbl α} (ht : t.wf d = true) (hu : u.wf d = true)
    (h : ∀ k, t.get d k = u.get d k) : t = u := by
  induction t generalizing u with
  | nil =>
    cases u with
    | nil => rfl
    | cons e u =>
      obtain ⟨j, w⟩ := e
      obtain ⟨hw, -, -⟩ := Tbl.wf_cons.1 hu
      exact absurd ((Tbl.get_cons_self j w u).symm.trans (h j).symm) hw
  | cons e t ih =>
    obtain ⟨i, v⟩ := e
    obtain ⟨hv, hit, ht'⟩ := Tbl.wf_cons.1 ht
    have hi := h i
    rw [Tbl.get_cons_self] at hi
    cases u with
    | nil => exact absurd hi hv
    | cons e u =>
      obtain ⟨j, w⟩ := e
      obtain ⟨hw, hju, hu'⟩ := Tbl.wf_cons.1 hu
      have hj := h j
      rw [Tbl.get_cons_self] at hj
      obtain hlt | rfl | hgt := Nat.lt_trichotomy i j
      · have above : Tbl.above i ((j, w) :: u) = true := by simpa [Tbl.above] using hlt
        exact absurd (hi.trans (Tbl.get_eq_of_above d above (Nat.le_refl i))) hv
      · rw [Tbl.get_cons_self] at hi
        rw [hi, ih ht' hu' fun k => ?_]
        obtain hk | hk := Nat.lt_or_ge i k
        · simpa only [Tbl.get_cons_of_gt _ _ hk] using h k
        · rw [Tbl.get_eq_of_above d hit hk, Tbl.get_eq_of_above d hju hk]
      · have above : Tbl.above j ((i, v) :: t) = true := by simpa [Tbl.above] using hgt
        exact absurd (hj.symm.trans (Tbl.get_eq_of_above d above (Nat.le_refl j))) hw

/-! ### Adding into one entry of a table -/

/-- Adds a number to what the table reads at a key. -/
def Tbl.addAt (t : Tbl Int) (k : Nat) (z : Int) : Tbl Int := t.set 0 k (t.get 0 k + z)

theorem Tbl.wf_addAt {t : Tbl Int} (k : Nat) (z : Int) (h : t.wf 0 = true) : (t.addAt k z).wf 0 = true := Tbl.wf_set h

theorem Tbl.get_addAt {t : Tbl Int} (k : Nat) (z : Int) (h : t.wf 0 = true) (j : Nat) :
    (t.addAt k z).get 0 j = t.get 0 j + if j = k then z else 0 := by
  split
  case isTrue hj => rw [hj]; exact Tbl.get_set_self h
  case isFalse hj => rw [Int.add_zero]; exact Tbl.get_set_ne h hj

theorem Tbl.addAt_zero {t : Tbl Int} (k : Nat) (h : t.wf 0 = true) : t.addAt k 0 = t :=
  Tbl.eq_of_get_eq (Tbl.wf_addAt k 0 h) h fun j => by simp [Tbl.get_addAt k 0 h]

theorem Tbl.addAt_comm {t : Tbl Int} (k l : Nat) (y z : Int) (h : t.wf 0 = true) :
    (t.addAt k y).addAt l z = (t.addAt l z).addAt k y := by
  have hk := Tbl.wf_addAt k y h
  have hl := Tbl.wf_addAt l z h
  refine Tbl.eq_of_get_eq (Tbl.wf_addAt l z hk) (Tbl.wf_addAt k y hl) fun j => ?_
  simp only [Tbl.get_addAt _ _ hk, Tbl.get_addAt _ _ hl, Tbl.get_addAt _ _ h]
  omega

/-! ### What one term does to a plane -/

/-- A count that goes up, held to 32 bits (R119), when an event happens. -/
def countIf (happens : Bool) (n : Nat) : Nat := if happens then sat32 (n + 1) else n

theorem countIf_comm (a b : Bool) (n : Nat) : countIf a (countIf b n) = countIf b (countIf a n) := by
  cases a <;> cases b <;> rfl

/-- A term of this value overflows a plane of anchor `A` (R109). -/
def Dy.overflowsAt (v : Dy) (A : Int) : Bool := !v.isZero && !v.abs.lt ⟨1, A + 31⟩

/-- A term of this value is added into a plane of anchor `A`: it is neither zero nor overflows (R109). -/
def Dy.addedAt (v : Dy) (A : Int) : Bool := !v.isZero && v.abs.lt ⟨1, A + 31⟩

/-- Bits of the value drop when it is added into a plane of anchor `A` (R109). -/
def Dy.dropsAt (v : Dy) (A : Int) : Bool := v.addedAt A && !(v.truncAt (A - 160)).2

/-- What a term of this value adds to its accumulator in a plane of anchor `A` (R109). -/
def Dy.addendAt (v : Dy) (A : Int) : Int := if v.addedAt A then (v.truncAt (A - 160)).1 else 0

/-- Every field changes by an update that reads that field, the term and the anchor, and the anchor stays. -/
theorem PlaneSt.addTerm_eq {p : PlaneSt} (h : p.acc.wf 0 = true) (row col : Nat) (v : Dy) :
    p.addTerm row col v = { p with
      ovf := p.ovf || v.overflowsAt p.anchor
      ovfTerms := countIf (v.overflowsAt p.anchor) p.ovfTerms
      drops := countIf (v.dropsAt p.anchor) p.drops
      acc := p.acc.addAt (64 * row + col) (v.addendAt p.anchor) } := by
  cases hz : v.isZero with
  | true => simp [PlaneSt.addTerm, Dy.overflowsAt, Dy.dropsAt, Dy.addendAt, Dy.addedAt, countIf, hz, Tbl.addAt_zero _ h]
  | false =>
    cases hlt : v.abs.lt ⟨1, p.anchor + 31⟩ with
    | false => simp [PlaneSt.addTerm, Dy.overflowsAt, Dy.dropsAt, Dy.addendAt, Dy.addedAt, countIf, hz, hlt, Tbl.addAt_zero _ h]
    | true =>
      cases hx : (v.truncAt (p.anchor - 160)).2 <;>
        simp [PlaneSt.addTerm, Dy.overflowsAt, Dy.dropsAt, Dy.addendAt, Dy.addedAt, countIf, Tbl.addAt, hz, hlt, hx]

theorem PlaneSt.addTerm_acc_wf {p : PlaneSt} (h : p.acc.wf 0 = true) (row col : Nat) (v : Dy) :
    (p.addTerm row col v).acc.wf 0 = true := by
  rw [PlaneSt.addTerm_eq h]
  exact Tbl.wf_addAt _ _ h

theorem PlaneSt.addTerm_comm {p : PlaneSt} (h : p.acc.wf 0 = true) (r c r' c' : Nat) (v v' : Dy) :
    (p.addTerm r c v).addTerm r' c' v' = (p.addTerm r' c' v').addTerm r c v := by
  rw [PlaneSt.addTerm_eq (PlaneSt.addTerm_acc_wf h r c v), PlaneSt.addTerm_eq (PlaneSt.addTerm_acc_wf h r' c' v'),
    PlaneSt.addTerm_eq h, PlaneSt.addTerm_eq h]
  simp only [PlaneSt.mk.injEq, true_and, and_true]
  exact ⟨Tbl.addAt_comm _ _ _ _ h, Bool.or_right_comm _ _ _, countIf_comm _ _ _, countIf_comm _ _ _⟩

theorem PlaneSt.addTerms_cons (p : PlaneSt) (t : Term) (ts : List Term) :
    p.addTerms (t :: ts) = (p.addTerm t.row t.col t.v).addTerms ts := rfl

/-- Settles O50, by induction on the permutation: a swap of neighbours exchanges two independent updates of each field. -/
theorem planeOrderHasNoEffect : Obligations.PlaneOrderHasNoEffect := by
  intro p ts us hwf hperm
  induction hperm generalizing p with
  | nil => rfl
  | cons t _ ih => exact ih _ (PlaneSt.addTerm_acc_wf hwf ..)
  | swap t u ts => rw [PlaneSt.addTerms_cons, PlaneSt.addTerms_cons, PlaneSt.addTerm_comm hwf]; rfl
  | trans _ _ ih₁ ih₂ => exact (ih₁ p hwf).trans (ih₂ p hwf)

end Sys2Proof.Machine
end

section
/-!
The routes between the dies (R25, R26) and the channels of memory addresses (R357, R360).
-/
namespace Sys2Proof.Machine

/-! ### A route reads one bit of the destination address -/

/-- The address that stands for all whose bit 9 is that of `addr`. -/
def rowAddr (addr : Nat) : Nat := if bit addr 9 = true then 512 else 0

theorem bit_rowAddr (addr : Nat) : bit (rowAddr addr) 9 = bit addr 9 := by
  unfold rowAddr
  cases bit addr 9 <;> decide

theorem routeDies_rowAddr (x y addr : Nat) : routeDies x y (rowAddr addr) = routeDies x y addr := by
  simp only [routeDies, bit_rowAddr]

theorem routeLinks_rowAddr (x y addr : Nat) : routeLinks x y (rowAddr addr) = routeLinks x y addr := by
  simp only [routeLinks, routeDies_rowAddr]

/-- A table of routes that is right at both values of bit 9 is right at every address. -/
theorem routes_of_both_rows {l : List (Nat × Nat × List Nat × List Nat)}
    (h : ∀ e ∈ l, ∀ a ∈ [0, 512], routeDies e.1 e.2.1 a = e.2.2.1 ∧ routeLinks e.1 e.2.1 a = e.2.2.2) :
    ∀ e ∈ l, ∀ a, routeDies e.1 e.2.1 a = e.2.2.1 ∧ routeLinks e.1 e.2.1 a = e.2.2.2 := by
  intro e he a
  rw [← routeDies_rowAddr, ← routeLinks_rowAddr]
  refine h e he _ ?_
  unfold rowAddr
  split <;> decide

theorem quoin_routes (a : Nat) :
    routeDies 4 5 a = (if bit a 9 = true then [4, 2, 3, 5] else [4, 0, 1, 5])
      ∧ routeDies 5 4 a = (if bit a 9 = true then [5, 3, 2, 4] else [5, 1, 0, 4])
      ∧ routeLinks 4 5 a = (if bit a 9 = true then [5, 1, 7] else [4, 0, 6])
      ∧ routeLinks 5 4 a = (if bit a 9 = true then [7, 1, 5] else [6, 0, 4]) := by
  simp only [← routeDies_rowAddr _ _ a, ← routeLinks_rowAddr _ _ a, rowAddr]
  split <;> decide

/-! ### The channels of a stretch of 32 KiB -/

/-- Granule `i` of a stretch lies on channel `i`, with the bits of the stretch's own address exchanged in (R357). -/
theorem stratumChannel_granule (a : Nat) {i : Nat} (hi : i < 64) : stratumChannel (32768 * a + 512 * i) = i ^^^ (a / 16 % 64) := by
  have low : field ((32768 * a + 512 * i) % stratumSize) 9 6 = i := by
    simp only [field, stratumSize]
    omega
  have high : field ((32768 * a + 512 * i) % stratumSize) 19 6 = a / 16 % 64 := by
    simp only [field, stratumSize]
    omega
  simp only [stratumChannel, low, high]

theorem stratumChannel_granule_injective {a i j : Nat} (hi : i < 64) (hj : j < 64)
    (h : stratumChannel (32768 * a + 512 * i) = stratumChannel (32768 * a + 512 * j)) : i = j := by
  rw [stratumChannel_granule a hi, stratumChannel_granule a hj] at h
  have cancelled := congrArg (· ^^^ (a / 16 % 64)) h
  simpa only [Nat.xor_assoc, Nat.xor_self, Nat.xor_zero] using cancelled

/-- Settles O54: the routes at both values of bit 9, and granules of a stretch that differ in the channel's low field alone. -/
theorem routesAndChannels : Obligations.RoutesAndChannels :=
  ⟨routes_of_both_rows (by decide), quoin_routes, fun _ _ _ => stratumChannel_granule_injective, by decide⟩

end Sys2Proof.Machine
end

section
/-!
The pages of absent and of present units (R16, R625).
-/
namespace Sys2Proof.Machine

/-! ### A page's block and instance fit PAGE_ID's halves -/

/-- The page map names no block above SPD and no more instances of a block than there are spindles (R622). -/
theorem pageMap_bounds : ∀ e ∈ pageMap, e.2.1 ≤ 4608 ∧ e.2.2 ≤ 0x32 := by decide

theorem pageBlock_bounds (page : Nat) : (pageBlock page).1 ≤ 0x32 ∧ (pageBlock page).2 < 4608 := by
  unfold pageBlock
  split
  next e found =>
    obtain ⟨instances, block⟩ := pageMap_bounds e (List.mem_of_find?_eq_some found)
    have inRange := List.find?_some found
    simp only [Bool.and_eq_true, decide_eq_true_eq] at inRange
    exact ⟨block, by omega⟩
  next => decide

/-! ### Reads and writes of a page -/

theorem State.readReg_absent {s : State} {page : Nat} (absent : s.pagePresent page = false) (off : Nat) :
    s.readReg page off = if off = 0 then 0xFFFF0000 else 0 := by
  simp only [State.readReg, absent, Bool.not_false, if_true, beq_iff_eq]
  split <;> rfl

theorem State.writeReg_absent {s : State} {page : Nat} (absent : s.pagePresent page = false) (off : Nat) (v : W32) (origin : W64) :
    s.writeReg page off v origin = s := by
  simp [State.writeReg, absent]

/-- The words below 0x40 of a present unit's page are the common header's (R624). -/
theorem State.readReg_header {s : State} {page off : Nat} (present : s.pagePresent page = true) (low : off < 0x40) :
    s.readReg page off = BitVec.ofNat 32 ((s.page page).header (pageBlock page).1 (pageBlock page).2 off) := by
  simp [State.readReg, present, low]

theorem State.readReg_pageId {s : State} {page : Nat} (present : s.pagePresent page = true) :
    (s.readReg page 0).toNat = (pageBlock page).1 * 2 ^ 16 + (pageBlock page).2 := by
  obtain ⟨block, instances⟩ := pageBlock_bounds page
  rw [State.readReg_header present (by decide), BitVec.toNat_ofNat]
  exact Nat.mod_eq_of_lt (by simp only [PageHdr.header, beq_self_eq_true, if_true]; omega)

/-- The STATUS word of a header is odd: its bit 0 is PRESENT (R624). -/
theorem PageHdr.header_status_odd (h : PageHdr) (block inst : Nat) : h.header block inst 0x10 % 2 = 1 := by
  change (4 * b2n h.locked + 2 * b2n h.errValid + 1) % 2 = 1
  omega

theorem State.readReg_present {s : State} {page : Nat} (present : s.pagePresent page = true) :
    (s.readReg page 0x10).getLsbD 0 = true := by
  rw [State.readReg_header present (by decide), BitVec.getLsbD_ofNat]
  simp [Nat.testBit_zero, PageHdr.header_status_odd]

/-- Which units are present rests on the fuses alone, whatever job is loaded (R625). -/
theorem State.pagePresent_job (s : State) (j : Job) (page : Nat) : ({ s with job := j } : State).pagePresent page = s.pagePresent page :=
  rfl

/-- Settles O52: an absent unit's page by its first branch in reads and writes, a present unit's through the common header. -/
theorem absentUnitsPage : Obligations.AbsentUnitsPage := fun s page =>
  ⟨fun absent => ⟨State.readReg_absent absent 0, fun off nonzero => by rw [State.readReg_absent absent, if_neg nonzero],
      State.writeReg_absent absent⟩,
    fun present => ⟨State.readReg_pageId present, State.readReg_present present⟩,
    fun j => State.pagePresent_job s j page⟩

end Sys2Proof.Machine
end
